-- ==== Sys2Proof/Word.lean ====
section
/-! DEFINITION. The widths of the values CORE moves: bytes of the wire stream, the 16-bit Length and InstID, the 32-bit
ObjID and snapshot values, and the 32-bit millisecond time (00_scope.md R14, 30_encoding.md R70, 43_connection.md R170). -/

namespace Sys2Proof

/-- One byte (R14). -/
abbrev Byte := BitVec 8

/-- A 16-bit field: Length, InstID (R25, R27). -/
abbrev Half := BitVec 16

/-- A 32-bit value: an ObjID, a published value (R26, R31). -/
abbrev Word := BitVec 32

/-- A time in milliseconds, modulo 2^32 (R170). TIME_W is fixed at 32 (assumption log entry 8). -/
abbrev Time := BitVec 32

end Sys2Proof
end

