-- ==== Sys2Proof/Config.lean ====
section
/-! DEFINITION. The configuration: what an implementation fixes (00_scope.md R11, 10_state.md R36), as plain data, and the
open values as constants with no body. The check of R12 is in Machine/ConfigCheck.lean. -/

namespace Sys2Proof

/-- BYTE_ORDER (R51): which arriving byte of a multi-byte value is the least significant. -/
inductive ByteOrder
  | le
  | be
  deriving DecidableEq, Repr

/-- The checksum functions crc_update and crc_final (R100, R107): the default CRC-8 of R108, or any other pair, which the
model leaves open and only numbers (assumption log entry 7). -/
inductive CrcAlg
  | crc8
  | other (id : Nat)
  deriving DecidableEq, Repr

/-- CRC_W, CRC_INIT and the two functions (R11, R100). A checksum value is the Nat its CRC_W bits denote. -/
structure CrcConfig where
  width : Nat
  init : Nat
  alg : CrcAlg
  deriving DecidableEq, Repr

/-- The width of a descriptor field in bytes, one of 1, 2, 4 (R55, R87). -/
inductive Width
  | w1
  | w2
  | w4
  deriving DecidableEq, Repr

/-- The semantic type of a descriptor field (R87, R155). -/
inductive FieldType
  | uint
  | sint
  | enum
  | float
  deriving DecidableEq, Repr

/-- One field entry of a descriptor (R87): snapshot slot, byte offset into Data, width, semantic type. -/
structure FieldEntry where
  slot : Nat
  off : Nat
  width : Width
  ty : FieldType
  deriving DecidableEq, Repr

/-- A descriptor: an ObjID and its ordered fields (R87). -/
structure Descriptor where
  objid : Word
  fields : List FieldEntry
  deriving DecidableEq, Repr

/-- The record of R11. Configuration is constant from reset on (R13, R36, R63). `statsStatusOff` is an offset 0 to 254 by
its type, which is its condition in R12. -/
structure Config where
  h : Nat
  syncVal : Byte
  verMask : Byte
  verTag : Byte
  tObj : Byte
  tObjReq : Byte
  tObjAck : Byte
  tAck : Byte
  tNack : Byte
  byteOrder : ByteOrder
  crc : CrcConfig
  desc : List Descriptor
  nSlots : Nat
  statsObjId : Word
  statsStatusOff : Fin 255
  psDisc : Byte
  psHsReq : Byte
  psHsAck : Byte
  psConn : Byte
  tConnect : Nat
  tPeriod : Nat
  passive : Bool
  deriving DecidableEq, Repr

/-- The conditions of R12, one name each; a configuration that fails one is refused under that name. -/
inductive ConfigProblem
  /-- H is neither 8 nor 10. -/
  | headerLength
  /-- VER_TAG has a bit outside VER_MASK. -/
  | versionTag
  /-- Two of the five type values are equal. -/
  | typesEqual
  /-- A type value exceeds ~VER_MASK. -/
  | typeTooLarge
  /-- CRC_W is 0. -/
  | crcWidth
  /-- CRC_INIT or the default CRC-8 does not have CRC_W bits. -/
  | crcShape
  /-- A field entry reaches beyond Data byte 254. -/
  | fieldRange
  /-- A field entry names a slot that does not exist. -/
  | fieldSlot
  /-- A FLOAT field is not 4 bytes wide. -/
  | floatWidth
  /-- Two descriptors have the same ObjID. -/
  | objidsEqual
  /-- Two fields of one descriptor have the same slot. -/
  | slotsEqual
  /-- Two of the four peer-status values are equal. -/
  | peerStatusEqual
  /-- T_CONNECT is not below 2^31. -/
  | connectTimeout
  /-- T_PERIOD is not below 2^31. -/
  | period
  deriving DecidableEq, Repr

/-- N_SLOTS: R11 names it and gives no default (assumption log entry 6). -/
opaque Config.openSlots : Nat

/-- STATS_OBJID: R11 names it and gives no default (assumption log entry 6). -/
opaque Config.openStatsObjId : Word

/-- STATS_STATUS_OFF: R11 names it and gives no default (assumption log entry 6). -/
opaque Config.openStatsStatusOff : Fin 255

/-- crc_update of an implementation that does not use the default (R107; assumption log entry 7): a function of the number
of the pair, CRC_W, the running value and the byte. Its CRC_W low bits are used. -/
opaque Config.openCrcUpdate : Nat → Nat → Nat → Byte → Nat

/-- crc_final of an implementation that does not use the default (R107; assumption log entry 7). -/
opaque Config.openCrcFinal : Nat → Nat → Nat → Byte

/-- The err port of a cycle in which the BYTE and the TICK step both report an error, by the number of the cycle and the two
codes: the spec gives no priority (assumption log entry 18). -/
opaque Config.openErrPort : Nat → BitVec 3 → BitVec 3 → BitVec 3

/-- The ports whose value R85 leaves open in some cycles: a data port whose valid line is 0, and the snapshot read port for a
slot that does not exist. -/
inductive OpenPort
  | snapValid
  | snapValue
  | status
  | frameDlen
  | txKind
  deriving DecidableEq, Repr

/-- What a port shows where the spec gives no value, by the number of the cycle. Each port has a value of its own: R85 relates
none of them to another (assumption log entries 18 and 23). -/
opaque Config.openPort : Nat → OpenPort → (width : Nat) → BitVec width

/-- The default instantiation of R11 (UNVERIFIED: its concrete values are from general knowledge, 93_implementation_defined.md
part 2; assumption log entry 5). -/
def Config.default : Config where
  h := 10
  syncVal := 0x3C
  verMask := 0xF8
  verTag := 0x20
  tObj := 0
  tObjReq := 1
  tObjAck := 2
  tAck := 3
  tNack := 4
  byteOrder := .le
  crc := { width := 8, init := 0, alg := .crc8 }
  desc := []
  nSlots := Config.openSlots
  statsObjId := Config.openStatsObjId
  statsStatusOff := Config.openStatsStatusOff
  psDisc := 0
  psHsReq := 1
  psHsAck := 2
  psConn := 3
  tConnect := 10000
  tPeriod := 1000
  passive := false

end Sys2Proof
end

