-- ==== Sys2Proof/Machine/ConfigCheck.lean ====
section
/-! DEFINITION. The well-formedness of a configuration (00_scope.md R12). -/

namespace Sys2Proof.Machine

/-- The width of a field in bytes (R87). -/
def widthBytes : Width → Nat
  | .w1 => 1
  | .w2 => 2
  | .w4 => 4

/-- The five type values (R11). -/
def typeValues (cfg : Config) : List Byte := [cfg.tObj, cfg.tObjReq, cfg.tObjAck, cfg.tAck, cfg.tNack]

/-- The four peer-status values (R11). -/
def peerValues (cfg : Config) : List Byte := [cfg.psDisc, cfg.psHsReq, cfg.psHsAck, cfg.psConn]

/-- No value occurs twice. -/
def allDistinct {α : Type} [DecidableEq α] : List α → Bool
  | [] => true
  | a :: rest => !rest.contains a && allDistinct rest

/-- A condition on every field entry of the table. -/
def everyField (cfg : Config) (p : FieldEntry → Bool) : Bool := cfg.desc.all fun d => d.fields.all p

/-- CRC_INIT is a CRC_W-bit value, and the default CRC-8 has CRC_W = 8 (R108; assumption log entry 7). -/
def crcShapeOk (c : CrcConfig) : Bool := decide (c.init < 2 ^ c.width) && (c.alg != .crc8 || c.width == 8)

/-- The conditions of R12 with their names, in the order of that rule. -/
def configConditions (cfg : Config) : List (Bool × ConfigProblem) :=
  [(cfg.h == 8 || cfg.h == 10, .headerLength),
   (cfg.verTag &&& ~~~cfg.verMask == 0, .versionTag),
   (allDistinct (typeValues cfg), .typesEqual),
   ((typeValues cfg).all fun t => decide (t ≤ ~~~cfg.verMask), .typeTooLarge),
   (decide (1 ≤ cfg.crc.width), .crcWidth),
   (crcShapeOk cfg.crc, .crcShape),
   (everyField cfg fun f => decide (f.off + widthBytes f.width ≤ 255), .fieldRange),
   (everyField cfg fun f => decide (f.slot < cfg.nSlots), .fieldSlot),
   (everyField cfg fun f => f.ty != .float || f.width == .w4, .floatWidth),
   (allDistinct (cfg.desc.map (·.objid)), .objidsEqual),
   (cfg.desc.all fun d => allDistinct (d.fields.map (·.slot)), .slotsEqual),
   (allDistinct (peerValues cfg), .peerStatusEqual),
   (decide (cfg.tConnect < 2 ^ 31), .connectTimeout),
   (decide (cfg.tPeriod < 2 ^ 31), .period)]

/-- The first condition of R12 that a configuration fails; none where it is well formed. -/
def configProblem (cfg : Config) : Option ConfigProblem :=
  ((configConditions cfg).find? fun c => !c.1).map (·.2)

end Sys2Proof.Machine
end

