-- ==== Sys2Proof/Syntax.lean ====
section
/-! DEFINITION. The operations of spec/opcode_table.json, one constructor a row, and the packets that stimuli arrive in:
the bits of one instruction with the format of the table they are to be read in (30_encoding.md R83; the packets
themselves are the model's own, assumption log entry 2). -/

namespace Sys2Proof

/-- One constructor per row of spec/opcode_table.json, in the table's order. Every operand is one the row names under
`source_fields`, or the `now` of the BYTE event the row's byte arrives in. -/
inductive Instr
  -- event words (R83)
  | nop
  | byte (b : Byte) (now : Time)
  | tick (now : Time)
  | query
  | reset
  | illegalOp5
  | illegalOp6
  | illegalOp7
  -- pseudo-event (R91)
  | read (bytes : List Byte) (now : Time)
  -- MsgType bytes (R80) and the sync marker (R71)
  | msgObj (now : Time)
  | msgObjReq (now : Time)
  | msgObjAck (now : Time)
  | msgAck (now : Time)
  | msgNack (now : Time)
  | msgIllegal (b : Byte) (now : Time)
  | sync (now : Time)
  -- micro-operations of a BYTE step (R120)
  | pWaitSync (b : Byte) (now : Time)
  | pGotSync (b : Byte) (now : Time)
  | pGotMsgType (b : Byte) (now : Time)
  | pGotLength (b : Byte) (now : Time)
  | pGotObjID (b : Byte) (now : Time)
  | pGotInstID (b : Byte) (now : Time)
  | pGotData (b : Byte) (now : Time)
  | pGotCrc (b : Byte) (now : Time)
  -- sub-operations: CRC Engine (R100)
  | crcInit
  | crcUpd (b : Byte)
  | crcFin
  -- sub-operations: Object Dispatcher (R150)
  | dLookup
  | dExtract (f : FieldEntry)
  | dPublish (pairs : List (Nat × Word))
  -- sub-operations: Connection State Machine (R173, R180)
  | cFrame (now : Time)
  | cStats (ps : Byte) (now : Time)
  | cTimeout (now : Time)
  | cPeriod (now : Time)
  deriving DecidableEq, Repr

/-- The formats of spec/opcode_table.json that have bits. The format "sub-operation" has none, so no packet holds one. -/
inductive Format
  /-- event-word-43 (R83). -/
  | event
  /-- pseudo-event, encoded BYTE* TICK (R91). -/
  | read
  /-- msgtype-byte-8 (R80). -/
  | msgType
  /-- sync-byte-8 (R71). -/
  | sync
  /-- micro-op, selected by pstate[2:0] (R120). -/
  | microOp
  deriving DecidableEq, Repr

/-- One stimulus as bits: a format and bytes, the least significant byte of the table's word first (assumption log entry 2). -/
structure Packet where
  fmt : Format
  bytes : List Byte
  deriving DecidableEq, Repr

/-- Why a packet is no instruction. -/
inductive DecodeError
  /-- The packet does not have the number of bytes of its format. -/
  | wrongLength
  /-- A bit that does not exist in the format's word is 1. -/
  | noSuchBit
  /-- A sync-byte packet does not hold SYNC_VAL. -/
  | notSync
  /-- A pseudo-event packet is not BYTE words and then one TICK word, all of one time (R91). -/
  | notRead
  deriving DecidableEq, Repr

/-- What the decoder answers. -/
inductive Decoded
  | ok (i : Instr)
  | rejected (e : DecodeError)
  deriving DecidableEq, Repr

/-- The five message types (R72). -/
inductive MsgClass
  | obj
  | objReq
  | objAck
  | ack
  | nack
  deriving DecidableEq, Repr

end Sys2Proof
end

