-- ==== Sys2Proof/Machine/State.lean ====
section
/-! DEFINITION. The state of CORE as plain data (10_state.md R20), the output record of a step (00_scope.md R16), the ways a
step can stop, and the state after reset (10_state.md R40). -/

namespace Sys2Proof.Machine

/-- The parser states in the source's order (R21). -/
inductive PState
  | waitSync
  | gotSync
  | gotMsgType
  | gotLength
  | gotObjID
  | gotInstID
  | gotData
  | gotCrc
  deriving DecidableEq, Repr

/-- The connection states in the source's order (R32). -/
inductive CState
  | disconnected
  | handshakeRequested
  | handshakeAcknowledged
  | connected
  deriving DecidableEq, Repr

/-- The status of a BYTE step or of a READ (R138, R139). -/
inductive Status
  | idle
  | frameInProgress
  | frameDispatched
  | frameDropped
  deriving DecidableEq, Repr

/-- The six error classes (R200). -/
inductive Err
  | syncMismatch
  | unsupportedMsgType
  | lengthOutOfRange
  | crcMismatch
  | unknownObjID
  | handshakeTimeout
  deriving DecidableEq, Repr

/-- What the dispatcher did with a frame (R150). -/
inductive DispatchResult
  | unknown
  | short
  | published
  deriving DecidableEq, Repr

/-- The kinds of outbound request (R84). Only `stats` is ever requested (R186). -/
inductive TxKind
  | stats
  | ack
  | nack
  | objectRequest
  deriving DecidableEq, Repr

/-- An emitted frame (R16, R136). It has no sync component (R30). -/
structure Frame where
  type : Byte
  length : Half
  objid : Word
  instid : Half
  data : List Byte
  crc : Byte
  deriving DecidableEq, Repr

/-- The output record of one step with its defaults (R16). -/
structure Output where
  status : Option Status := none
  err : Option Err := none
  frame : Option Frame := none
  dres : Option DispatchResult := none
  pub : List (Nat × Word) := []
  activity : Bool := false
  stats : Option Byte := none
  cev : Option (CState × CState) := none
  tx : Option TxKind := none
  query : Option (PState × CState) := none
  deriving DecidableEq, Repr

/-- What a READ returns (R139): its status, its two counts, and the output record of each of its steps in order, the closing
TICK's last (assumption log entry 16). -/
structure ReadResult where
  status : Status
  dispatches : Nat
  drops : Nat
  outs : List Output
  deriving DecidableEq, Repr

/-- What the last operation returns to its invoker (assumption log entry 11): CRC.FIN its byte (R103), D.LOOKUP the
descriptor found (R151), D.EXTRACT the value (R155), READ its result (R139), any other operation nothing. -/
inductive OpResult
  | nothing
  | crcByte (b : Byte)
  | lookup (d : Option Descriptor)
  | value (v : Word)
  | read (r : ReadResult)
  deriving DecidableEq, Repr

/-- A storage of optional cells: the cells that hold a value, as (address, value) pairs with addresses strictly rising. An
address not listed holds none (R28, R31; assumption log entry 17). -/
abbrev Memory (α : Type) := List (Nat × α)

/-- The state. The thirteen items of R20; `cfg`, the read-only control registers of R36; and three fields of the model's own:
`input`, the stimuli not yet delivered (assumption log entry 1), `out`, the output record of the last step, and `res`
(assumption log entry 11). `crc` is the Nat that its CRC_W bits denote (assumption log entry 7). -/
structure State where
  cfg : Config
  pstate : PState
  cnt : Byte
  crc : Nat
  fType : Option Byte
  fLen : Option Half
  fObjid : Option Word
  fInstid : Option Half
  dbuf : Memory Byte
  snap : Memory Word
  cstate : CState
  tLast : Time
  tTx : Time
  passive : Bool
  input : List Packet
  out : Output
  res : OpResult
  deriving DecidableEq, Repr

/-- Why an operation stops with a fault. No event does so in a state that a run from reset reaches (R8, R57); the spec gives no
rule where one does (assumption log entry 15). -/
inductive Fault
  /-- A rule reads a frame register that holds none. Raised by the P.* micro-operations from P.GOTMSGTYPE on, D.LOOKUP and
  C.FRAME. Safe. -/
  | emptyRegister
  /-- A rule reads a Data cell that holds none. Raised by P.GOTCRC, D.EXTRACT and C.FRAME. Safe. -/
  | emptyCell
  /-- `cnt` is outside the range R22 gives for `pstate`. Raised by P.GOTMSGTYPE, P.GOTLENGTH, P.GOTOBJID and
  P.GOTINSTID. Safe. -/
  | countOutOfRange
  /-- A BYTE arrives with `pstate` = GotCrc, which R43 says is never held. Raised by BYTE. Safe. -/
  | heldGotCrc
  /-- A write to Data cell 255, which does not exist (R28). Raised by P.GOTINSTID. Safe. -/
  | noSuchCell
  /-- A write to a snapshot slot that does not exist (R31). Raised by D.PUBLISH. Safe. -/
  | noSuchSlot
  deriving DecidableEq, Repr

/-- Why an instruction or a configuration has no meaning. -/
inductive Refusal
  /-- The arm of an instruction that has no meaning yet. Raised by exec's arms only. Safe. -/
  | notModelled (mnemonic : String)
  /-- The configuration breaks R12. Raised by step. Safe. -/
  | illFormedConfig (p : ConfigProblem)
  /-- The packet is no instruction of its format. Raised by step. Safe. -/
  | undecodable (e : DecodeError)
  /-- The event word's op is 5, 6 or 7, which are not events (R83). Raised by ILLEGAL.OP5, ILLEGAL.OP6, ILLEGAL.OP7. Safe. -/
  | notAnEvent (op : BitVec 3)
  /-- The micro-operation is not the one pstate selects (R120; assumption log entry 13). Raised by the P.* rows. Safe. -/
  | notSelected (held : PState)
  deriving DecidableEq, Repr

/-- The state after RESET under a configuration, nothing yet delivered (R40). -/
def State.initial (cfg : Config) : State where
  cfg := cfg
  pstate := .waitSync
  cnt := 0
  crc := cfg.crc.init
  fType := none
  fLen := none
  fObjid := none
  fInstid := none
  dbuf := []
  snap := []
  cstate := .disconnected
  tLast := 0
  tTx := 0
  passive := cfg.passive
  input := []
  out := {}
  res := .nothing

/-- The state after RESET under the default configuration (R11, R40). -/
def State.reset : State := State.initial Config.default

end Sys2Proof.Machine
end

