-- ==== Sys2Proof/Machine/Ops.lean ====
section
/-! DEFINITION. The named operations over storages and registers: reading and writing optional cells, beginning a step,
discarding the frame in progress (the counterpart of taking an exception, 60_exceptions.md R207) and the return to WaitSync
(R209, 41_parser.md R137). -/

namespace Sys2Proof.Machine

/-- What an instruction answers. -/
abbrev Result := Host.Outcome State Fault Refusal

/-- Run a further operation on the state an operation answers. -/
def andThen {σ τ : Type} (r : Host.Outcome σ Fault Refusal) (f : σ → Host.Outcome τ Fault Refusal) :
    Host.Outcome τ Fault Refusal :=
  match r with
  | .next s => f s
  | .fault e => .fault e
  | .refused e => .refused e

/-- Read an optional value, or fault. -/
def need {α τ : Type} (e : Fault) (v : Option α) (f : α → Host.Outcome τ Fault Refusal) : Host.Outcome τ Fault Refusal :=
  match v with
  | some a => f a
  | none => .fault e

/-- The content of a cell: none where nothing is listed. -/
def Memory.read {α : Type} : Memory α → Nat → Option α
  | [], _ => none
  | (k, v) :: rest, a => if k = a then some v else Memory.read rest a

/-- Write one cell, keeping the canonical form. -/
def Memory.write {α : Type} : Memory α → Nat → α → Memory α
  | [], a, v => [(a, v)]
  | (k, x) :: rest, a, v =>
    if a < k then (a, v) :: (k, x) :: rest
    else if a = k then (a, v) :: rest
    else (k, x) :: Memory.write rest a v

/-- The canonical form: addresses strictly rising. (No entry equals what an unlisted address reads as: an entry holds a
value, an unlisted address none.) -/
def Memory.wf {α : Type} : Memory α → Bool
  | [] => true
  | [_] => true
  | (a, _) :: (b, y) :: rest => decide (a < b) && Memory.wf ((b, y) :: rest)

/-- The `n` bytes from an offset on, in order of increasing offset; none where a cell holds none. -/
def Memory.readBytes (m : Memory Byte) (a : Nat) : Nat → Option (List Byte)
  | 0 => some []
  | n + 1 =>
    match Memory.read m a, Memory.readBytes m (a + 1) n with
    | some b, some bs => some (b :: bs)
    | _, _ => none

/-- Write every pair of a publication list, a later pair winning (R158). -/
def Memory.writeAll {α : Type} (m : Memory α) : List (Nat × α) → Memory α
  | [] => m
  | (a, v) :: rest => Memory.writeAll (Memory.write m a v) rest

/-- Begin a step: every output field has its default (R15, R16). -/
def State.beginStep (s : State) : State := { s with out := {}, res := .nothing }

/-- An answer to the invoker of an operation. -/
def State.answer (s : State) (r : OpResult) : State := { s with res := r }

/-- The frame in progress is forgotten and the parser is back in WaitSync: pstate, cnt, crc by CRC.INIT, every frame register
and Data cell none (R137, R207). -/
def State.toWaitSync (s : State) : State :=
  { s with
    pstate := .waitSync
    cnt := 0
    crc := s.cfg.crc.init
    fType := none
    fLen := none
    fObjid := none
    fInstid := none
    dbuf := [] }

/-- Discard: what `raise E` does for a parser error, with the status of the step (R207). Nothing is saved and nothing else
changes. -/
def State.discard (s : State) (e : Err) : State :=
  { s.toWaitSync with out := { err := some e, status := some .frameDropped }, res := .nothing }

/-- RESET: every item of state takes its reset value, the output record is all defaults (R40, R230). The configuration stays
(R36), and so do the stimuli the host has not yet delivered. -/
def State.resetAll (s : State) : State := { State.initial s.cfg with input := s.input }

end Sys2Proof.Machine
end

