-- ==== Sys2Proof/Machine/Crc.lean ====
section
/-! DEFINITION. The CRC Engine (40_crc.md): the default byte update, the functions of a configuration, the fold over the bytes
of a frame, and CRC.INIT, CRC.UPD, CRC.FIN. -/

namespace Sys2Proof.Machine

/-- One of the eight rounds of the default update (R108). -/
def crc8Round (x : Byte) : Byte := if x.getLsbD 7 then (x <<< 1) ^^^ 0x07 else x <<< 1

/-- Apply the round a number of times. -/
def crc8Rounds : Nat → Byte → Byte
  | 0, x => x
  | n + 1, x => crc8Rounds n (crc8Round x)

/-- crc_update of the default instantiation: CRC-8, polynomial 0x07, most significant bit first (R108). -/
def crc8Update (c b : Byte) : Byte := crc8Rounds 8 (c ^^^ b)

/-- crc_update of a configuration (R100): the default, or an open function cut to CRC_W bits (assumption log entry 7). -/
def crcUpdate (cfg : CrcConfig) (c : Nat) (b : Byte) : Nat :=
  match cfg.alg with
  | .crc8 => (crc8Update (BitVec.ofNat 8 c) b).toNat
  | .other id => Config.openCrcUpdate id cfg.width c b % 2 ^ cfg.width

/-- crc_final of a configuration (R100, R108). -/
def crcFinal (cfg : CrcConfig) (c : Nat) : Byte :=
  match cfg.alg with
  | .crc8 => BitVec.ofNat 8 c
  | .other id => Config.openCrcFinal id cfg.width c

/-- The checksum of a byte string from a value on: `fold` of R104. -/
def crcFold (cfg : CrcConfig) (c : Nat) : List Byte → Nat
  | [] => c
  | b :: bs => crcFold cfg (crcUpdate cfg c b) bs

/-- The result of CRC.FIN (R103). -/
def State.crcByte (s : State) : Byte := crcFinal s.cfg.crc s.crc

/-- CRC.INIT (R101). -/
def execCrcInit (s : State) : Result := .next { s with crc := s.cfg.crc.init }

/-- CRC.UPD (R102). -/
def execCrcUpd (b : Byte) (s : State) : Result := .next { s with crc := crcUpdate s.cfg.crc s.crc b }

/-- CRC.FIN (R103): the result goes to the invoker, `crc` is not changed. -/
def execCrcFin (s : State) : Result := .next (s.answer (.crcByte s.crcByte))

end Sys2Proof.Machine
end

