-- ==== Sys2Proof/Machine/MsgType.lean ====
section
/-! DEFINITION. The MsgType byte (30_encoding.md R72, R80). -/

namespace Sys2Proof.Machine

/-- The parameter T_* of a message type (R11). -/
def typeValue (cfg : Config) : MsgClass → Byte
  | .obj => cfg.tObj
  | .objReq => cfg.tObjReq
  | .objAck => cfg.tObjAck
  | .ack => cfg.tAck
  | .nack => cfg.tNack

/-- The map of the MsgType byte (R80): which message type a byte is, none where it is illegal. -/
def msgClass (cfg : Config) (b : Byte) : Option MsgClass :=
  if b &&& cfg.verMask = cfg.verTag then
    [MsgClass.obj, .objReq, .objAck, .ack, .nack].find? fun c => b &&& ~~~cfg.verMask == typeValue cfg c
  else none

/-- A legal MsgType byte (R80, the condition of R123). -/
def legalMsgType (cfg : Config) (b : Byte) : Bool := (msgClass cfg b).isSome

/-- The byte that carries a message type: version tag and type value (R72, R92). -/
def msgByte (cfg : Config) (c : MsgClass) : Byte := cfg.verTag ||| typeValue cfg c

end Sys2Proof.Machine
end

