-- ==== Sys2Proof/Machine/Operands.lean ====
section
/-! DEFINITION. The operand forms: multi-byte fields as they arrive (30_encoding.md R76) and as they are read from Data
(20_memory.md R52), the extension to 32 bits (42_extractor.md R155, R156), the Data length, and the bytes a frame register
holds in order of arrival. -/

namespace Sys2Proof.Machine

/-- One byte of a header field taken into its register of `w` bits, `k` bytes having been taken before (R76). -/
def asmStep {w : Nat} (o : ByteOrder) (k : Nat) (r : BitVec w) (b : Byte) : BitVec w :=
  if k = 0 then b.setWidth w
  else
    match o with
    | .le => r ||| (b.setWidth w <<< (8 * k))
    | .be => (r <<< 8) ||| b.setWidth w

/-- The same on an optional register: the first byte does not read it; a later byte finds none only in an unreachable state. -/
def asmReg {w : Nat} (o : ByteOrder) (k : Nat) (r : Option (BitVec w)) (b : Byte) : Option (BitVec w) :=
  if k = 0 then some (asmStep o 0 0 b) else r.map fun v => asmStep o k v b

/-- The Length value the second Length byte completes (R126). -/
def lengthOf (o : ByteOrder) (first : Half) (b : Byte) : Half :=
  match o with
  | .le => b ++ first.extractLsb' 0 8
  | .be => first.extractLsb' 0 8 ++ b

/-- asm_n for LE: the sum of b_k * 2^(8k) (R52). -/
def asmLe : List Byte → Nat
  | [] => 0
  | b :: bs => b.toNat + 256 * asmLe bs

/-- asm_n (R52): BE is LE of the reversed bytes. -/
def asm (o : ByteOrder) (bs : List Byte) : Nat :=
  match o with
  | .le => asmLe bs
  | .be => asmLe bs.reverse

/-- The `n` low bytes of a value, least significant first. -/
def leBytes : Nat → Nat → List Byte
  | 0, _ => []
  | n + 1, v => BitVec.ofNat 8 v :: leBytes n (v / 256)

/-- The `n` bytes of a value in order of arrival: the inverse of `asm` (R52, R92). -/
def bytesOf (o : ByteOrder) (n v : Nat) : List Byte :=
  match o with
  | .le => leBytes n v
  | .be => (leBytes n v).reverse

/-- The extension of a raw value of `n` bytes to 32 bits: zero for UINT and ENUM, sign for SINT, unchanged bits for FLOAT
(R155, R156). -/
def extend (ty : FieldType) (n raw : Nat) : Word :=
  match ty with
  | .uint | .enum | .float => BitVec.ofNat 32 raw
  | .sint => (BitVec.ofNat (8 * n) raw).signExtend 32

/-- `dlen = f_len - H` (R25), on 16 bits (R14). -/
def dlenOf (cfg : Config) (len : Half) : Nat := (len - BitVec.ofNat 16 cfg.h).toNat

/-- D.EXTRACT of one field (R154, R155): MemRead of its bytes, assembled and extended; none where a byte is not there. -/
def extractField (cfg : Config) (dbuf : Memory Byte) (f : FieldEntry) : Option Word :=
  (Memory.readBytes dbuf f.off (widthBytes f.width)).map fun bs =>
    extend f.ty (widthBytes f.width) (asm cfg.byteOrder bs)

/-- The publication list of a descriptor's fields, in order (R157, R158); none where a byte is not there. -/
def extractAll (cfg : Config) (dbuf : Memory Byte) : List FieldEntry → Option (List (Nat × Word))
  | [] => some []
  | f :: fs =>
    match extractField cfg dbuf f, extractAll cfg dbuf fs with
    | some v, some ps => some ((f.slot, v) :: ps)
    | _, _ => none

/-- The place of a parser state in the source's order, which is its code (R21, R84). -/
def PState.rank : PState → Nat
  | .waitSync => 0
  | .gotSync => 1
  | .gotMsgType => 2
  | .gotLength => 3
  | .gotObjID => 4
  | .gotInstID => 5
  | .gotData => 6
  | .gotCrc => 7

/-- The bytes of the frame in progress accepted so far, in order, as the frame registers hold them (R23, R58, R104). -/
def State.wireSoFar (s : State) : List Byte :=
  let o := s.cfg.byteOrder
  let sync := [s.cfg.syncVal]
  let type := (s.fType.toList)
  let len := fun n => bytesOf o n (s.fLen.getD 0).toNat
  let objid := fun n => bytesOf o n (s.fObjid.getD 0).toNat
  let instid := fun n => if s.cfg.h = 10 then bytesOf o n (s.fInstid.getD 0).toNat else []
  match s.pstate with
  | .waitSync => []
  | .gotSync => sync
  | .gotMsgType => sync ++ type ++ len s.cnt.toNat
  | .gotLength => sync ++ type ++ len 2 ++ objid s.cnt.toNat
  | .gotObjID => sync ++ type ++ len 2 ++ objid 4 ++ instid s.cnt.toNat
  | .gotInstID | .gotData | .gotCrc => sync ++ type ++ len 2 ++ objid 4 ++ instid 2 ++ s.dbuf.map (·.2)

end Sys2Proof.Machine
end

