-- ==== Sys2Proof/Machine/Flags.lean ====
section
/-! DEFINITION. CORE has no condition codes (10_state.md R37). What takes their place are the conditions the rules test: the
Length range, the fit check, the two timers, and the status of a READ. -/

namespace Sys2Proof.Machine

/-- `H <= v <= H + 255` (R126). -/
def legalLength (cfg : Config) (v : Half) : Bool := decide (cfg.h ≤ v.toNat) && decide (v.toNat ≤ cfg.h + 255)

/-- The fit check (R153): every field lies inside the Data received. -/
def fits (d : Descriptor) (dlen : Nat) : Bool := d.fields.all fun f => decide (f.off + widthBytes f.width ≤ dlen)

/-- `elapsed(t) = (now - t) mod 2^32` (R170). -/
def elapsed (now t : Time) : Time := now - t

/-- The connect-timeout has expired on a link that is not Disconnected (R181): strictly more than T_CONNECT. -/
def State.stale (s : State) (now : Time) : Bool :=
  s.cstate != .disconnected && decide (s.cfg.tConnect < (elapsed now s.tLast).toNat)

/-- A periodic request is due (R183): at least T_PERIOD since the last one, not Disconnected, not passive. -/
def State.periodDue (s : State) (now : Time) : Bool :=
  s.cstate != .disconnected && !s.passive && decide (s.cfg.tPeriod ≤ (elapsed now s.tTx).toNat)

/-- The peer status of a valid stats frame (R174): none where the frame is not one. -/
def statsOf (cfg : Config) (objid : Word) (data : List Byte) : Option Byte :=
  if objid = cfg.statsObjId then data[cfg.statsStatusOff.val]? else none

/-- The state a peer status moves the connection to (R176). -/
def nextCState (cfg : Config) (c : CState) (ps : Byte) : CState :=
  match c with
  | .disconnected => if ps = cfg.psHsReq then .handshakeRequested else .disconnected
  | .handshakeRequested => if ps = cfg.psHsAck then .handshakeAcknowledged else .handshakeRequested
  | .handshakeAcknowledged => if ps = cfg.psConn then .connected else .handshakeAcknowledged
  | .connected => .connected

/-- How many of the steps of a READ had a status. -/
def countStatus (x : Status) (outs : List Output) : Nat := outs.countP fun o => o.status == some x

/-- The aggregate status of a READ (R139): dispatched over dropped over in progress over idle. -/
def readStatus (outs : List Output) (p : PState) : Status :=
  if countStatus .frameDispatched outs ≠ 0 then .frameDispatched
  else if countStatus .frameDropped outs ≠ 0 then .frameDropped
  else if p ≠ .waitSync then .frameInProgress
  else .idle

end Sys2Proof.Machine
end

