-- ==== Sys2Proof/Machine/Connection.lean ====
section
/-! DEFINITION. The Connection State Machine (43_connection.md): C.FRAME, C.STATS, C.TIMEOUT, C.PERIOD and TICK. The C.*
operations add to the output record of the step in progress. -/

namespace Sys2Proof.Machine

/-- Request a stats frame and restart the period (R179, R183, R185). -/
def State.requestStats (s : State) (now : Time) : State := { s with tTx := now, out := { s.out with tx := some .stats } }

/-- Change the connection state and report it (R176, R181). -/
def State.moveTo (s : State) (new : CState) : State :=
  { s with cstate := new, out := { s.out with cev := some (s.cstate, new) } }

/-- The effect of C.STATS (R176): refresh, then at most one forward transition, with a request unless passive. -/
def State.takeStats (s : State) (ps : Byte) (now : Time) : State :=
  let seen : State := { s with tLast := now, out := { s.out with stats := some ps } }
  let new := nextCState s.cfg s.cstate ps
  if new = s.cstate then seen
  else if s.passive then seen.moveTo new
  else (seen.moveTo new).requestStats now

/-- The effect of C.FRAME on an emitted frame (R173). -/
def State.takeFrame (s : State) (objid : Word) (data : List Byte) (now : Time) : State :=
  let seen : State := { s with out := { s.out with activity := true } }
  match statsOf s.cfg objid data with
  | some ps => seen.takeStats ps now
  | none => seen

/-- The effect of C.TIMEOUT (R181). -/
def State.checkTimeout (s : State) (now : Time) : State :=
  if s.stale now then
    { s with
      cstate := .disconnected
      out := { s.out with cev := some (s.cstate, .disconnected), err := some .handshakeTimeout } }
  else s

/-- The effect of C.PERIOD (R183). -/
def State.checkPeriod (s : State) (now : Time) : State := if s.periodDue now then s.requestStats now else s

/-- C.FRAME (R173): its operands are the ObjID, the Data length and the Data bytes of the frame. -/
def execCFrame (now : Time) (s : State) : Result :=
  need .emptyRegister s.fObjid fun objid =>
    need .emptyRegister s.fLen fun len =>
      need .emptyCell (Memory.readBytes s.dbuf 0 (dlenOf s.cfg len)) fun data =>
        .next (s.takeFrame objid data now)

/-- C.STATS (R176). -/
def execCStats (ps : Byte) (now : Time) (s : State) : Result := .next (s.takeStats ps now)

/-- C.TIMEOUT (R181). -/
def execCTimeout (now : Time) (s : State) : Result := .next (s.checkTimeout now)

/-- C.PERIOD (R183). -/
def execCPeriod (now : Time) (s : State) : Result := .next (s.checkPeriod now)

/-- TICK (R180): C.TIMEOUT, then C.PERIOD on the state it left. -/
def execTick (now : Time) (s : State) : Result := andThen (execCTimeout now s.beginStep) (execCPeriod now)

end Sys2Proof.Machine
end

