-- ==== Sys2Proof/Machine/Dispatcher.lean ====
section
/-! DEFINITION. The Object Dispatcher (42_extractor.md): D.LOOKUP with the fit check, D.EXTRACT, D.PUBLISH, and their
composition on the frame in the frame registers. They add to the output record of the step in progress. -/

namespace Sys2Proof.Machine

/-- The descriptor of an ObjID (R151): all 32 bits equal, the first in table order. -/
def lookup (desc : List Descriptor) (objid : Word) : Option Descriptor := desc.find? fun d => d.objid == objid

/-- What D.LOOKUP and the fit check report (R152, R153): an unknown ObjID, a Data part too short, or nothing yet where the
fields are to be extracted. -/
def State.noteLookup (s : State) (hit : Option Descriptor) (dlen : Nat) : State :=
  match hit with
  | none => { s with out := { s.out with dres := some .unknown, err := some .unknownObjID } }
  | some d => if fits d dlen then s else { s with out := { s.out with dres := some .short } }

/-- The effect of D.PUBLISH (R158): all pairs in one step. -/
def State.publish (s : State) (pairs : List (Nat × Word)) : State :=
  { s with
    snap := Memory.writeAll s.snap pairs
    out := { s.out with pub := pairs, dres := some .published } }

/-- D.LOOKUP (R151 to R153): the result goes to the invoker (assumption log entry 21). -/
def execDLookup (s : State) : Result :=
  need .emptyRegister s.fObjid fun objid =>
    need .emptyRegister s.fLen fun len =>
      let hit := lookup s.cfg.desc objid
      .next ((s.noteLookup hit (dlenOf s.cfg len)).answer (.lookup hit))

/-- D.EXTRACT (R154 to R156): the value goes to the invoker. -/
def execDExtract (f : FieldEntry) (s : State) : Result :=
  need .emptyCell (extractField s.cfg s.dbuf f) fun v => .next (s.answer (.value v))

/-- D.PUBLISH (R158). A slot at or above N_SLOTS does not exist (R31). -/
def execDPublish (pairs : List (Nat × Word)) (s : State) : Result :=
  if pairs.all (fun p => decide (p.1 < s.cfg.nSlots)) then .next (s.publish pairs) else .fault .noSuchSlot

/-- The dispatcher on the frame of the frame registers (R150): lookup, fit check, extraction of every field, publication. -/
def dispatchObject (s : State) : Result :=
  need .emptyRegister s.fObjid fun objid =>
    need .emptyRegister s.fLen fun len =>
      let dlen := dlenOf s.cfg len
      match lookup s.cfg.desc objid with
      | none => .next (s.noteLookup none dlen)
      | some d =>
        if fits d dlen then
          need .emptyCell (extractAll s.cfg s.dbuf d.fields) fun pairs => execDPublish pairs s
        else .next (s.noteLookup (some d) dlen)

end Sys2Proof.Machine
end

