-- ==== Sys2Proof/Machine/Parser.lean ====
section
/-! DEFINITION. The Frame Parser (41_parser.md): the micro-operations of a BYTE step, BYTE, and the wire bytes SYNC and
MSG.* (30_encoding.md R71, R80). -/

namespace Sys2Proof.Machine

/-- What every byte does that is accepted before the Crc byte: a step begins, CRC.UPD folds the byte, the status is
frame-in-progress (R102, R138). -/
def State.accept (s : State) (b : Byte) : State :=
  { s with
    crc := crcUpdate s.cfg.crc s.crc b
    out := { status := some .frameInProgress }
    res := .nothing }

/-- A micro-operation runs where pstate selects it (R120; assumption log entry 13). -/
def selected (p : PState) (s : State) (r : Result) : Result := if s.pstate = p then r else .refused (.notSelected s.pstate)

/-- End of header (R131): to GotData where there is no Data, else to GotInstID. -/
def State.endHeader (s : State) (len : Half) : State :=
  { s with pstate := if dlenOf s.cfg len = 0 then .gotData else .gotInstID, cnt := 0 }

/-- P.WAITSYNC (R121, R122). `crc` is CRC_INIT on entry; the rule folds from CRC_INIT. -/
def execPWaitSync (b : Byte) (_now : Time) (s : State) : Result :=
  selected .waitSync s <|
    if b = s.cfg.syncVal then
      .next { s.accept b with crc := crcUpdate s.cfg.crc s.cfg.crc.init b, pstate := .gotSync, cnt := 0 }
    else .next { s with out := { err := some .syncMismatch, status := some .idle }, res := .nothing }

/-- P.GOTSYNC (R123, R124). -/
def execPGotSync (b : Byte) (_now : Time) (s : State) : Result :=
  selected .gotSync s <|
    if legalMsgType s.cfg b then .next { s.accept b with fType := some b, cnt := 0, pstate := .gotMsgType }
    else .next (s.discard .unsupportedMsgType)

/-- P.GOTMSGTYPE (R125, R126, R127). -/
def execPGotMsgType (b : Byte) (_now : Time) (s : State) : Result :=
  selected .gotMsgType s <|
    if s.cnt = 0 then .next { s.accept b with fLen := some (b.setWidth 16), cnt := 1 }
    else if s.cnt = 1 then
      need .emptyRegister s.fLen fun first =>
        let v := lengthOf s.cfg.byteOrder first b
        if legalLength s.cfg v then .next { s.accept b with fLen := some v, cnt := 0, pstate := .gotLength }
        else .next (s.discard .lengthOutOfRange)
    else .fault .countOutOfRange

/-- P.GOTLENGTH (R128, R129). -/
def execPGotLength (b : Byte) (_now : Time) (s : State) : Result :=
  selected .gotLength s <|
    if s.cnt.toNat ≤ 3 then
      need .emptyRegister (asmReg s.cfg.byteOrder s.cnt.toNat s.fObjid b) fun objid =>
        if s.cnt.toNat < 3 then .next { s.accept b with fObjid := some objid, cnt := s.cnt + 1 }
        else if s.cfg.h = 10 then .next { s.accept b with fObjid := some objid, cnt := 0, pstate := .gotObjID }
        else
          need .emptyRegister s.fLen fun len =>
            .next (({ s.accept b with fObjid := some objid, fInstid := some 0 } : State).endHeader len)
    else .fault .countOutOfRange

/-- P.GOTOBJID (R130). -/
def execPGotObjID (b : Byte) (_now : Time) (s : State) : Result :=
  selected .gotObjID s <|
    if s.cnt = 0 then .next { s.accept b with fInstid := some (b.setWidth 16), cnt := 1 }
    else if s.cnt = 1 then
      need .emptyRegister (asmReg s.cfg.byteOrder 1 s.fInstid b) fun instid =>
        need .emptyRegister s.fLen fun len =>
          .next (({ s.accept b with fInstid := some instid } : State).endHeader len)
    else .fault .countOutOfRange

/-- P.GOTINSTID (R132, R133). Data cell 255 does not exist (R28). -/
def execPGotInstID (b : Byte) (_now : Time) (s : State) : Result :=
  selected .gotInstID s <|
    need .emptyRegister s.fLen fun len =>
      if s.cnt.toNat + 1 ≤ dlenOf s.cfg len then
        if s.cnt.toNat < 255 then
          let t : State := { s.accept b with dbuf := Memory.write s.dbuf s.cnt.toNat b }
          if s.cnt.toNat + 1 < dlenOf s.cfg len then .next { t with cnt := s.cnt + 1 }
          else .next { t with cnt := 0, pstate := .gotData }
        else .fault .noSuchCell
      else .fault .countOutOfRange

/-- The emission of P.GOTCRC (R136): the frame the frame registers hold, with the Crc byte that matched. -/
def emitFrame (b : Byte) (s : State) : Result :=
  need .emptyRegister s.fType fun type =>
    need .emptyRegister s.fLen fun len =>
      need .emptyRegister s.fObjid fun objid =>
        need .emptyRegister s.fInstid fun instid =>
          need .emptyCell (Memory.readBytes s.dbuf 0 (dlenOf s.cfg len)) fun data =>
            let frame : Frame := { type, length := len, objid, instid, data, crc := b }
            .next { s with out := { s.out with frame := some frame } }

/-- P.GOTCRC (R136, R137): emit, dispatch the object, run the Connection State Machine, return to WaitSync. It continues the
step of the matching Crc byte and so keeps its output record (assumption log entry 22). -/
def execPGotCrc (b : Byte) (now : Time) (s : State) : Result :=
  selected .gotCrc s <|
    andThen (emitFrame b s) fun s1 =>
      andThen (dispatchObject s1) fun s2 =>
        andThen (execCFrame now s2) fun s3 => .next s3.toWaitSync

/-- The state in which P.GOTDATA hands a matching Crc byte to P.GOTCRC (R134): GotCrc, entered and left inside the step. -/
def State.matched (s : State) : State :=
  { s with pstate := .gotCrc, out := { status := some .frameDispatched }, res := .nothing }

/-- P.GOTDATA (R134, R135). -/
def execPGotData (b : Byte) (now : Time) (s : State) : Result :=
  selected .gotData s <|
    if b = s.crcByte then execPGotCrc b now s.matched else .next (s.discard .crcMismatch)

/-- BYTE (R120): run the micro-operation of the name of pstate. -/
def execByte (b : Byte) (now : Time) (s : State) : Result :=
  match s.pstate with
  | .waitSync => execPWaitSync b now s
  | .gotSync => execPGotSync b now s
  | .gotMsgType => execPGotMsgType b now s
  | .gotLength => execPGotLength b now s
  | .gotObjID => execPGotObjID b now s
  | .gotInstID => execPGotInstID b now s
  | .gotData => execPGotData b now s
  | .gotCrc => .fault .heldGotCrc

/-- SYNC (R71, R121): the sync marker arrives. In a state other than WaitSync it is a value of the field being received
(R146; assumption log entry 14). -/
def execSync (now : Time) (s : State) : Result := execByte s.cfg.syncVal now s

/-- The MsgType byte of a message type arrives (R80, R123; assumption log entry 14). -/
def takeMsg (c : MsgClass) (now : Time) (s : State) : Result := execByte (msgByte s.cfg c) now s

/-- MSG.OBJ (R80, R123). -/
def execMsgObj (now : Time) (s : State) : Result := takeMsg .obj now s

/-- MSG.OBJ_REQ (R80, R123). -/
def execMsgObjReq (now : Time) (s : State) : Result := takeMsg .objReq now s

/-- MSG.OBJ_ACK (R80, R123). -/
def execMsgObjAck (now : Time) (s : State) : Result := takeMsg .objAck now s

/-- MSG.ACK (R80, R123). -/
def execMsgAck (now : Time) (s : State) : Result := takeMsg .ack now s

/-- MSG.NACK (R80, R123). -/
def execMsgNack (now : Time) (s : State) : Result := takeMsg .nack now s

/-- MSG.ILLEGAL (R81, R124): a byte that is no legal MsgType arrives. -/
def execMsgIllegal (b : Byte) (now : Time) (s : State) : Result := execByte b now s

end Sys2Proof.Machine
end

