-- ==== Sys2Proof/Machine/Events.lean ====
section
/-! DEFINITION. The events that are not BYTE or TICK (30_encoding.md R82, R83), and the composite READ (R91, 41_parser.md
R139). -/

namespace Sys2Proof.Machine

/-- NOP (R83): no event; the state is unchanged and the output is all defaults. -/
def execNop (s : State) : Result := .next s.beginStep

/-- QUERY (R140). -/
def execQuery (s : State) : Result := .next { s with out := { query := some (s.pstate, s.cstate) }, res := .nothing }

/-- RESET (R230). -/
def execReset (s : State) : Result := .next s.resetAll

/-- ILLEGAL.OP5: not an event (R83). -/
def execIllegalOp5 (_s : State) : Result := .refused (.notAnEvent 5)

/-- ILLEGAL.OP6: not an event (R83). -/
def execIllegalOp6 (_s : State) : Result := .refused (.notAnEvent 6)

/-- ILLEGAL.OP7: not an event (R83). -/
def execIllegalOp7 (_s : State) : Result := .refused (.notAnEvent 7)

/-- BYTES (R90): one BYTE step for each byte, all of one time; the output records of the steps in order. -/
def feedBytes (now : Time) : List Byte → State → Host.Outcome (State × List Output) Fault Refusal
  | [], s => .next (s, [])
  | b :: bs, s =>
    andThen (execByte b now s) fun t =>
      andThen (feedBytes now bs t) fun r => .next (r.1, t.out :: r.2)

/-- The result of a READ (R139): status and counts from the BYTE steps, and every step's output record. -/
def readResult (outs : List Output) (p : PState) (tickOut : Output) : ReadResult where
  status := readStatus outs p
  dispatches := countStatus .frameDispatched outs
  drops := countStatus .frameDropped outs
  outs := outs ++ [tickOut]

/-- READ (R91, R139): the BYTE steps, then one TICK (assumption log entry 16). -/
def execRead (bytes : List Byte) (now : Time) (s : State) : Result :=
  andThen (feedBytes now bytes s) fun r =>
    andThen (execTick now r.1) fun u => .next (u.answer (.read (readResult r.2 r.1.pstate u.out)))

end Sys2Proof.Machine
end

