-- ==== Sys2Proof/Machine/Dispatch.lean ====
section
/-! DEFINITION. One arm per constructor of Instr. -/

namespace Sys2Proof.Machine

def exec (i : Instr) (s : State) : Host.Outcome State Fault Refusal :=
  match i with
  -- event words
  | .nop => Sys2Proof.Machine.execNop s
  | .byte b now => Sys2Proof.Machine.execByte b now s
  | .tick now => Sys2Proof.Machine.execTick now s
  | .query => Sys2Proof.Machine.execQuery s
  | .reset => Sys2Proof.Machine.execReset s
  | .illegalOp5 => Sys2Proof.Machine.execIllegalOp5 s
  | .illegalOp6 => Sys2Proof.Machine.execIllegalOp6 s
  | .illegalOp7 => Sys2Proof.Machine.execIllegalOp7 s
  -- pseudo-event
  | .read bytes now => Sys2Proof.Machine.execRead bytes now s
  -- wire bytes
  | .msgObj now => Sys2Proof.Machine.execMsgObj now s
  | .msgObjReq now => Sys2Proof.Machine.execMsgObjReq now s
  | .msgObjAck now => Sys2Proof.Machine.execMsgObjAck now s
  | .msgAck now => Sys2Proof.Machine.execMsgAck now s
  | .msgNack now => Sys2Proof.Machine.execMsgNack now s
  | .msgIllegal b now => Sys2Proof.Machine.execMsgIllegal b now s
  | .sync now => Sys2Proof.Machine.execSync now s
  -- micro-operations
  | .pWaitSync b now => Sys2Proof.Machine.execPWaitSync b now s
  | .pGotSync b now => Sys2Proof.Machine.execPGotSync b now s
  | .pGotMsgType b now => Sys2Proof.Machine.execPGotMsgType b now s
  | .pGotLength b now => Sys2Proof.Machine.execPGotLength b now s
  | .pGotObjID b now => Sys2Proof.Machine.execPGotObjID b now s
  | .pGotInstID b now => Sys2Proof.Machine.execPGotInstID b now s
  | .pGotData b now => Sys2Proof.Machine.execPGotData b now s
  | .pGotCrc b now => Sys2Proof.Machine.execPGotCrc b now s
  -- sub-operations
  | .crcInit => Sys2Proof.Machine.execCrcInit s
  | .crcUpd b => Sys2Proof.Machine.execCrcUpd b s
  | .crcFin => Sys2Proof.Machine.execCrcFin s
  | .dLookup => Sys2Proof.Machine.execDLookup s
  | .dExtract f => Sys2Proof.Machine.execDExtract f s
  | .dPublish pairs => Sys2Proof.Machine.execDPublish pairs s
  | .cFrame now => Sys2Proof.Machine.execCFrame now s
  | .cStats ps now => Sys2Proof.Machine.execCStats ps now s
  | .cTimeout now => Sys2Proof.Machine.execCTimeout now s
  | .cPeriod now => Sys2Proof.Machine.execCPeriod now s

end Sys2Proof.Machine
end

