-- ==== Sys2Proof/WellFormed.lean ====
section
/-! DEFINITION. When an instruction's operands are ones its row of the table can have under a configuration. -/

namespace Sys2Proof

open Machine

/-- A MsgType row stands for the byte that R80 reads as that message type. -/
def msgRowOk (cfg : Config) (c : MsgClass) : Bool := msgClass cfg (msgByte cfg c) == some c

/-- A field entry that a well-formed descriptor table may hold (R12, R87). -/
def fieldOk (cfg : Config) (f : FieldEntry) : Bool :=
  decide (f.off + widthBytes f.width ≤ 255) && decide (f.slot < cfg.nSlots) && (f.ty != .float || f.width == .w4)

/-- The publication list of one descriptor: slots that exist, each named once (R12, R158). -/
def pairsOk (cfg : Config) (pairs : List (Nat × Word)) : Bool :=
  pairs.all (fun p => decide (p.1 < cfg.nSlots)) && allDistinct (pairs.map (·.1))

/-- Well-formed under a configuration. Only the MsgType rows, a field entry and a publication list can be ill formed: every
other operand is a byte or a time of any value (R74, R120). -/
def Instr.wf (cfg : Config) : Instr → Bool
  | .msgObj _ => msgRowOk cfg .obj
  | .msgObjReq _ => msgRowOk cfg .objReq
  | .msgObjAck _ => msgRowOk cfg .objAck
  | .msgAck _ => msgRowOk cfg .ack
  | .msgNack _ => msgRowOk cfg .nack
  | .msgIllegal b _ => !legalMsgType cfg b
  | .dExtract f => fieldOk cfg f
  | .dPublish pairs => pairsOk cfg pairs
  | .nop | .byte _ _ | .tick _ | .query | .reset | .illegalOp5 | .illegalOp6 | .illegalOp7 | .read _ _ | .sync _
  | .pWaitSync _ _ | .pGotSync _ _ | .pGotMsgType _ _ | .pGotLength _ _ | .pGotObjID _ _ | .pGotInstID _ _
  | .pGotData _ _ | .pGotCrc _ _ | .crcInit | .crcUpd _ | .crcFin | .dLookup | .cFrame _ | .cStats _ _
  | .cTimeout _ | .cPeriod _ => true

end Sys2Proof
end

