-- ==== Sys2Proof/Decode.lean ====
section
/-! DEFINITION. The decoder, total on every packet and rejecting by name, and the encoder (30_encoding.md R71, R80, R83,
R91; opcode_table.json). The bytes of the formats other than the event word are the model's own (assumption log entry 2). -/

namespace Sys2Proof

open Machine

/-- The four bytes of a time, least significant first (bits 31:0 of the event word, R83). -/
def timeBytes (now : Time) : List Byte :=
  [now.extractLsb' 0 8, now.extractLsb' 8 8, now.extractLsb' 16 8, now.extractLsb' 24 8]

/-- The time its four bytes give. -/
def timeOf (t0 t1 t2 t3 : Byte) : Time := t3 ++ t2 ++ t1 ++ t0

/-- The six bytes of the event word {op, b, now} (R83), least significant first; bits 47:43 are 0. -/
def eventBytes (op : BitVec 3) (b : Byte) (now : Time) : List Byte := timeBytes now ++ [b, op.setWidth 8]

/-- The event word's op field, bits 42:40, which is bits 2:0 of the sixth byte; none where a bit above them is 1. -/
def opOf (top : Byte) : Option (BitVec 3) := if top.extractLsb' 3 5 = 0 then some (top.extractLsb' 0 3) else none

/-- The event of an op field (R83). `b` is ignored unless op = 1, `now` unless op is 1 or 2. -/
def eventOfOp (op : BitVec 3) (b : Byte) (now : Time) : Instr :=
  if op = 0 then .nop
  else if op = 1 then .byte b now
  else if op = 2 then .tick now
  else if op = 3 then .query
  else if op = 4 then .reset
  else if op = 5 then .illegalOp5
  else if op = 6 then .illegalOp6
  else .illegalOp7

/-- An event-word packet. -/
def decodeEvent : List Byte → Decoded
  | [t0, t1, t2, t3, b, top] =>
    match opOf top with
    | some op => .ok (eventOfOp op b (timeOf t0 t1 t2 t3))
    | none => .rejected .noSuchBit
  | _ => .rejected .wrongLength

/-- A pseudo-event packet, encoded BYTE* TICK: event words of six bytes each, BYTE words of one time and then the TICK word
of the same time (R91). -/
def decodeRead : List Byte → Decoded
  | t0 :: t1 :: t2 :: t3 :: b :: top :: rest =>
    match decodeEvent [t0, t1, t2, t3, b, top], rest with
    | .ok (.tick now), [] => .ok (.read [] now)
    | .ok (.byte c now), rest =>
      match decodeRead rest with
      | .ok (.read cs now') => if now' = now then .ok (.read (c :: cs) now) else .rejected .notRead
      | .ok _ => .rejected .notRead
      | .rejected e => .rejected e
    | .rejected e, _ => .rejected e
    | .ok _, _ => .rejected .notRead
  | _ => .rejected .wrongLength

/-- The MsgType row of a byte (R80). -/
def msgOf (cfg : Config) (b : Byte) (now : Time) : Instr :=
  match msgClass cfg b with
  | some .obj => .msgObj now
  | some .objReq => .msgObjReq now
  | some .objAck => .msgObjAck now
  | some .ack => .msgAck now
  | some .nack => .msgNack now
  | none => .msgIllegal b now

/-- A MsgType packet: the byte, then the time of its BYTE event. -/
def decodeMsg (cfg : Config) : List Byte → Decoded
  | [b, t0, t1, t2, t3] => .ok (msgOf cfg b (timeOf t0 t1 t2 t3))
  | _ => .rejected .wrongLength

/-- A sync-byte packet: the marker, then the time of its BYTE event. -/
def decodeSync (cfg : Config) : List Byte → Decoded
  | [b, t0, t1, t2, t3] => if b = cfg.syncVal then .ok (.sync (timeOf t0 t1 t2 t3)) else .rejected .notSync
  | _ => .rejected .wrongLength

/-- The micro-operation of a pstate code (R84, R120). -/
def microOfCode (code : BitVec 3) (b : Byte) (now : Time) : Instr :=
  if code = 0 then .pWaitSync b now
  else if code = 1 then .pGotSync b now
  else if code = 2 then .pGotMsgType b now
  else if code = 3 then .pGotLength b now
  else if code = 4 then .pGotObjID b now
  else if code = 5 then .pGotInstID b now
  else if code = 6 then .pGotData b now
  else .pGotCrc b now

/-- A micro-operation packet: the pstate code in bits 2:0 of the first byte, then the event's byte and time. -/
def decodeMicro : List Byte → Decoded
  | [top, b, t0, t1, t2, t3] =>
    match opOf top with
    | some code => .ok (microOfCode code b (timeOf t0 t1 t2 t3))
    | none => .rejected .noSuchBit
  | _ => .rejected .wrongLength

/-- The decoder. -/
def decode (cfg : Config) (p : Packet) : Decoded :=
  match p.fmt with
  | .event => decodeEvent p.bytes
  | .read => decodeRead p.bytes
  | .msgType => decodeMsg cfg p.bytes
  | .sync => decodeSync cfg p.bytes
  | .microOp => decodeMicro p.bytes

/-- The BYTE words of a READ (R91). -/
def readBytes (now : Time) : List Byte → List Byte
  | [] => eventBytes 2 0 now
  | b :: bs => eventBytes 1 b now ++ readBytes now bs

/-- An event-word packet with the ignored fields 0 (V-ENC-13). -/
def eventPacket (op : BitVec 3) (b : Byte) (now : Time) : Packet := { fmt := .event, bytes := eventBytes op b now }

/-- A MsgType packet. -/
def msgPacket (b : Byte) (now : Time) : Packet := { fmt := .msgType, bytes := b :: timeBytes now }

/-- A micro-operation packet. -/
def microPacket (code : BitVec 3) (b : Byte) (now : Time) : Packet :=
  { fmt := .microOp, bytes := code.setWidth 8 :: b :: timeBytes now }

/-- The encoder; none for a sub-operation, which has no encoding (opcode_table.json). -/
def encode (cfg : Config) : Instr → Option Packet
  | .nop => some (eventPacket 0 0 0)
  | .byte b now => some (eventPacket 1 b now)
  | .tick now => some (eventPacket 2 0 now)
  | .query => some (eventPacket 3 0 0)
  | .reset => some (eventPacket 4 0 0)
  | .illegalOp5 => some (eventPacket 5 0 0)
  | .illegalOp6 => some (eventPacket 6 0 0)
  | .illegalOp7 => some (eventPacket 7 0 0)
  | .read bs now => some { fmt := .read, bytes := readBytes now bs }
  | .msgObj now => some (msgPacket (msgByte cfg .obj) now)
  | .msgObjReq now => some (msgPacket (msgByte cfg .objReq) now)
  | .msgObjAck now => some (msgPacket (msgByte cfg .objAck) now)
  | .msgAck now => some (msgPacket (msgByte cfg .ack) now)
  | .msgNack now => some (msgPacket (msgByte cfg .nack) now)
  | .msgIllegal b now => some (msgPacket b now)
  | .sync now => some { fmt := .sync, bytes := cfg.syncVal :: timeBytes now }
  | .pWaitSync b now => some (microPacket 0 b now)
  | .pGotSync b now => some (microPacket 1 b now)
  | .pGotMsgType b now => some (microPacket 2 b now)
  | .pGotLength b now => some (microPacket 3 b now)
  | .pGotObjID b now => some (microPacket 4 b now)
  | .pGotInstID b now => some (microPacket 5 b now)
  | .pGotData b now => some (microPacket 6 b now)
  | .pGotCrc b now => some (microPacket 7 b now)
  | .crcInit => none
  | .crcUpd _ => none
  | .crcFin => none
  | .dLookup => none
  | .dExtract _ => none
  | .dPublish _ => none
  | .cFrame _ => none
  | .cStats _ _ => none
  | .cTimeout _ => none
  | .cPeriod _ => none

/-- Byte k of a table word, bit 0 of the word being bit 0 of byte 0. -/
def wordByte (w k : Nat) : Byte := BitVec.ofNat 8 (w / 256 ^ k)

/-- The format of an 8-bit table word. The micro-operation rows take the codes 0 to 7, the sync row SYNC_VAL, the MsgType
rows the rest; where rows overlap (a byte 0 to 7 is also an illegal MsgType byte) this order is the model's own
(DESIGN CHOICE, assumption log entry 4). -/
def byteFormat (b : Byte) : Format :=
  if b.toNat < 8 then .microOp else if b = Config.default.syncVal then .sync else .msgType

/-- The packet of a table word: 43 bits, or the six bytes that hold them, are an event word; up to 8 bits one of the byte
formats, whose bytes above the table's are 0; none for any other width. -/
def packetOfTableWord (nbits w : Nat) : Option Packet :=
  if 40 < nbits ∧ nbits ≤ 48 then some { fmt := .event, bytes := (List.range 6).map (wordByte w) }
  else if 0 < nbits ∧ nbits ≤ 8 then
    let b := wordByte w 0
    match byteFormat b with
    | .microOp => some { fmt := .microOp, bytes := [b, 0, 0, 0, 0, 0] }
    | f => some { fmt := f, bytes := [b, 0, 0, 0, 0] }
  else none

/-- The instruction the decoder reads from a table word under the default configuration (assumption log entry 4). -/
def decodeTableWord (nbits w : Nat) : Option Instr :=
  match packetOfTableWord nbits w with
  | some p =>
    match decode Config.default p with
    | .ok i => some i
    | .rejected _ => none
  | none => none

end Sys2Proof
end

