-- ==== Sys2Proof/Machine/Fetch.lean ====
section
/-! DEFINITION. Taking the next stimulus from the host's queue, and placing one so that the next step takes it
(assumption log entries 1 and 3). -/

namespace Sys2Proof.Machine

/-- The oldest stimulus not yet delivered, and the state without it; none where the host has issued none. -/
def fetch (s : State) : Option (Packet × State) :=
  match s.input with
  | [] => none
  | p :: rest => some (p, { s with input := rest })

/-- The parser state that selects a micro-operation packet (R84, R120). -/
def pstateOf (code : BitVec 3) : PState :=
  if code = 0 then .waitSync
  else if code = 1 then .gotSync
  else if code = 2 then .gotMsgType
  else if code = 3 then .gotLength
  else if code = 4 then .gotObjID
  else if code = 5 then .gotInstID
  else if code = 6 then .gotData
  else .gotCrc

/-- The parser in a given state, no byte of the current field taken, after the header of an Object frame of ObjID 0 and
InstID 0, with one Data byte to come in GotInstID and none in the later states; crc as R104 says. -/
def State.parserAt (s : State) (p : PState) : State :=
  let len : Half := BitVec.ofNat 16 (s.cfg.h + if p = .gotInstID then 1 else 0)
  let t : State :=
    { s.toWaitSync with
      pstate := p
      fType := if 2 ≤ p.rank then some (msgByte s.cfg .obj) else none
      fLen := if 3 ≤ p.rank then some len else none
      fObjid := if 4 ≤ p.rank then some 0 else none
      fInstid := if 5 ≤ p.rank then some 0 else none }
  { t with crc := crcFold t.cfg.crc t.cfg.crc.init t.wireSoFar }

/-- The parser state a packet needs in order to be the instruction it encodes: a MsgType byte is one in GotSync (R72, R80), a
micro-operation runs in the state that selects it (R120); the others need none. -/
def packetNeeds (p : Packet) : Option PState :=
  match p.fmt, p.bytes with
  | .msgType, _ => some .gotSync
  | .microOp, top :: _ => (opOf top).map pstateOf
  | _, _ => none

/-- Place a stimulus in front of the queue, the parser being where the packet needs it. -/
def State.place (s : State) (p : Packet) : State :=
  match packetNeeds p with
  | some q => { s.parserAt q with input := p :: s.input }
  | none => { s with input := p :: s.input }

end Sys2Proof.Machine
end

