-- ==== Sys2Proof/Machine/Step.lean ====
section
/-! DEFINITION. One step of the machine. -/

namespace Sys2Proof.Machine

/-- One step: an ill-formed configuration is refused by name (R12); with nothing to deliver CORE is idle (R220), which is NOP;
otherwise the oldest stimulus is decoded and executed. -/
def step (s : State) : Host.Outcome State Fault Refusal :=
  match configProblem s.cfg with
  | some p => .refused (.illFormedConfig p)
  | none =>
    match fetch s with
    | none => execNop s
    | some (p, t) =>
      match decode s.cfg p with
      | .ok i => exec i t
      | .rejected e => .refused (.undecodable e)

/-- The state with the instruction of a table word where step takes its next one (assumption log entry 3). -/
def State.withFetchWord (s : State) (nbits w : Nat) : State :=
  match packetOfTableWord nbits w with
  | some p => s.place p
  | none => s

end Sys2Proof.Machine
end

