-- ==== Sys2Proof/Machine/Codes.lean ====
section
/-! DEFINITION. The codes of the enumerations (30_encoding.md R84) and the packed word of a field entry (R87). -/

namespace Sys2Proof.Machine

/-- `pstate[2:0]`. -/
def pstateCode (p : PState) : BitVec 3 := BitVec.ofNat 3 p.rank

/-- `cstate[1:0]`. -/
def cstateCode : CState → BitVec 2
  | .disconnected => 0
  | .handshakeRequested => 1
  | .handshakeAcknowledged => 2
  | .connected => 3

/-- `status[1:0]`. -/
def statusCode : Status → BitVec 2
  | .idle => 0
  | .frameInProgress => 1
  | .frameDispatched => 2
  | .frameDropped => 3

/-- `err[2:0]`; 7 is unused. -/
def errCode : Option Err → BitVec 3
  | none => 0
  | some .syncMismatch => 1
  | some .unsupportedMsgType => 2
  | some .lengthOutOfRange => 3
  | some .crcMismatch => 4
  | some .unknownObjID => 5
  | some .handshakeTimeout => 6

/-- `dres[1:0]`. -/
def dresCode : Option DispatchResult → BitVec 2
  | none => 0
  | some .unknown => 1
  | some .short => 2
  | some .published => 3

/-- `tx_kind[1:0]`. -/
def txCode : TxKind → BitVec 2
  | .stats => 0
  | .ack => 1
  | .nack => 2
  | .objectRequest => 3

/-- The code of a field type. -/
def fieldTypeCode : FieldType → BitVec 2
  | .uint => 0
  | .sint => 1
  | .enum => 2
  | .float => 3

/-- The field type of a code. -/
def fieldTypeOf (c : BitVec 2) : FieldType :=
  if c = 0 then .uint else if c = 1 then .sint else if c = 2 then .enum else .float

/-- `wlog2`: the exponent of two of a width. -/
def widthCode : Width → BitVec 2
  | .w1 => 0
  | .w2 => 1
  | .w4 => 2

/-- The width of a `wlog2`; 3 is no width. -/
def widthOf (c : BitVec 2) : Option Width :=
  if c = 0 then some .w1 else if c = 1 then some .w2 else if c = 2 then some .w4 else none

/-- The packed word of a field entry, `{slot[15:0], off[7:0], wlog2[1:0], type[1:0]}` (R87). -/
def packField (f : FieldEntry) : BitVec 28 :=
  BitVec.ofNat 16 f.slot ++ BitVec.ofNat 8 f.off ++ widthCode f.width ++ fieldTypeCode f.ty

/-- The field entry of a packed word; none where `wlog2` is no width. -/
def unpackField (w : BitVec 28) : Option FieldEntry :=
  (widthOf (w.extractLsb' 2 2)).map fun width =>
    { slot := (w.extractLsb' 12 16).toNat
      off := (w.extractLsb' 4 8).toNat
      width
      ty := fieldTypeOf (w.extractLsb' 0 2) }

end Sys2Proof.Machine
end

