-- ==== Sys2Proof/Machine/Ports.lean ====
section
/-! DEFINITION. The port-level binding (30_encoding.md R85, R86; 60_exceptions.md R213): the events one cycle carries, and the
output ports after it. Nothing in `step` depends on it. -/

namespace Sys2Proof.Machine

/-- The inputs sampled in one cycle (R85). -/
structure PortIn where
  rst : Bool
  inValid : Bool
  inByte : Byte
  tick : Bool
  now : Time
  snapSlot : Nat
  deriving DecidableEq, Repr

/-- The outputs after one cycle (R85). `inReady` is constant 1. -/
structure PortOut where
  pstate : BitVec 3
  cstate : BitVec 2
  snapValid : Bool
  snapValue : Word
  statusValid : Bool
  status : BitVec 2
  err : BitVec 3
  frame : Option Frame
  frameDlen : Byte
  dres : BitVec 2
  activity : Bool
  stats : Option Byte
  cev : Option (BitVec 2 × BitVec 2)
  txReq : Bool
  txKind : BitVec 2
  inReady : Bool
  deriving DecidableEq, Repr

/-- The events of a cycle, in the order their steps are performed (R86): RESET alone, or BYTE and then TICK. -/
def PortIn.events (p : PortIn) : List Instr :=
  if p.rst then [.reset]
  else (if p.inValid then [.byte p.inByte p.now] else []) ++ (if p.tick then [.tick p.now] else [])

/-- Run events one after the other; the output records in order. -/
def runEvents : List Instr → State → Host.Outcome (State × List Output) Fault Refusal
  | [], s => .next (s, [])
  | i :: is, s => andThen (exec i s) fun t => andThen (runEvents is t) fun r => .next (r.1, t.out :: r.2)

/-- The first value that an output field has in the steps of a cycle. -/
def firstOf {α : Type} (f : Output → Option α) (outs : List Output) : Option α := outs.findSome? f

/-- The err port of cycle number `n` (R84, R85). -/
def errPort (n : Nat) (outs : List Output) : BitVec 3 :=
  match outs.filterMap (·.err) with
  | [] => errCode none
  | [e] => errCode (some e)
  | e :: e' :: _ => Config.openErrPort n (errCode (some e)) (errCode (some e'))

/-- The snap_valid port of cycle number `n` (R85): whether the slot holds a value. The spec gives neither the width of snap_slot
nor what a slot at or above N_SLOTS shows: the model takes any number there, and shows an open value (DESIGN CHOICE, assumption
log entry 23). -/
def snapValidPort (n : Nat) (s : State) (slot : Nat) : Bool :=
  if slot < s.cfg.nSlots then (Memory.read s.snap slot).isSome else Config.openPort n .snapValid 1 == 1

/-- The snap_value port of cycle number `n` (R85): the slot's value, and an open value where the slot holds none or does not
exist (DESIGN CHOICE, assumption log entries 18 and 23). -/
def snapValuePort (n : Nat) (s : State) (slot : Nat) : Word :=
  if slot < s.cfg.nSlots then (Memory.read s.snap slot).getD (Config.openPort n .snapValue 32)
  else Config.openPort n .snapValue 32

/-- The output ports of cycle number `n`, from a state and the output records of the cycle's steps (R85). `status`, `frameDlen`
and `txKind` show, while their valid line is 0, an open value of that port and cycle, none related to another (DESIGN CHOICE,
assumption log entry 18). -/
def portsOf (n : Nat) (p : PortIn) (s : State) (outs : List Output) : PortOut where
  pstate := pstateCode s.pstate
  cstate := cstateCode s.cstate
  snapValid := snapValidPort n s p.snapSlot
  snapValue := snapValuePort n s p.snapSlot
  statusValid := (firstOf (·.status) outs).isSome
  status := ((firstOf (·.status) outs).map statusCode).getD (Config.openPort n .status 2)
  err := errPort n outs
  frame := firstOf (·.frame) outs
  frameDlen := ((firstOf (·.frame) outs).map fun f => BitVec.ofNat 8 f.data.length).getD (Config.openPort n .frameDlen 8)
  dres := dresCode (firstOf (·.dres) outs)
  activity := outs.any (·.activity)
  stats := firstOf (·.stats) outs
  cev := (firstOf (·.cev) outs).map fun c => (cstateCode c.1, cstateCode c.2)
  txReq := (firstOf (·.tx) outs).isSome
  txKind := ((firstOf (·.tx) outs).map txCode).getD (Config.openPort n .txKind 2)
  inReady := true

/-- Cycle number `n` (R85, R86): its events, then the ports. -/
def cycle (n : Nat) (p : PortIn) (s : State) : Host.Outcome (State × PortOut) Fault Refusal :=
  andThen (runEvents p.events s) fun r => .next (r.1, portsOf n p r.1 r.2)

end Sys2Proof.Machine
end

