-- ==== Sys2Proof/Machine/Stimuli.lean ====
section
/-! DEFINITION. The stimuli FRAME, FRAME! and STATS (30_encoding.md R92, R93): the encoder that the round-trip property
speaks of. It is no part of the hardware; BYTES (R90) is `feedBytes` of Machine/Events.lean. -/

namespace Sys2Proof.Machine

/-- The `H` header bytes of a frame: Sync, MsgType, Length, ObjID, and InstID where H = 10 (R70, R92). -/
def headerBytes (cfg : Config) (type : Byte) (objid : Word) (instid : Half) (length : Nat) : List Byte :=
  [cfg.syncVal, cfg.verTag ||| type] ++ bytesOf cfg.byteOrder 2 length ++ bytesOf cfg.byteOrder 4 objid.toNat
    ++ (if cfg.h = 10 then bytesOf cfg.byteOrder 2 instid.toNat else [])

/-- The bytes of a frame before its Crc byte; Length is `H + L` (R73, R92). -/
def frameBody (cfg : Config) (type : Byte) (objid : Word) (instid : Half) (data : List Byte) : List Byte :=
  headerBytes cfg type objid instid (cfg.h + data.length) ++ data

/-- The Crc byte of a frame (R92, R105). -/
def frameCrc (cfg : Config) (body : List Byte) : Byte := crcFinal cfg.crc (crcFold cfg.crc cfg.crc.init body)

/-- FRAME (R92). -/
def frameBytes (cfg : Config) (type : Byte) (objid : Word) (instid : Half) (data : List Byte) : List Byte :=
  let body := frameBody cfg type objid instid data
  body ++ [frameCrc cfg body]

/-- FRAME! (R92): the Crc byte is exclusive-ored with 0xFF. -/
def badFrameBytes (cfg : Config) (type : Byte) (objid : Word) (instid : Half) (data : List Byte) : List Byte :=
  let body := frameBody cfg type objid instid data
  body ++ [frameCrc cfg body ^^^ 0xFF]

/-- STATS (R93): the shortest valid stats frame that carries a peer status. -/
def statsBytes (cfg : Config) (ps : Byte) : List Byte :=
  frameBytes cfg cfg.tObj cfg.statsObjId 0 (List.replicate cfg.statsStatusOff.val 0 ++ [ps])

end Sys2Proof.Machine
end

