-- ==== Sys2Proof/Safety.lean ====
section
/-! DEFINITION. The terms claims are stated in: which parts of the state two states share, the invariants of 10_state.md R23
and R41, the checksum invariant of 40_crc.md R104, and which instructions are events or their parts. -/

namespace Sys2Proof.Machine

/-- The parser registers agree (R42). -/
abbrev SameRegs (s t : State) : Prop :=
  t.pstate = s.pstate ∧ t.cnt = s.cnt ∧ t.crc = s.crc ∧ t.fType = s.fType ∧ t.fLen = s.fLen ∧ t.fObjid = s.fObjid ∧
    t.fInstid = s.fInstid

/-- Every Data cell reads the same. -/
abbrev SameData (s t : State) : Prop := ∀ a, Memory.read t.dbuf a = Memory.read s.dbuf a

/-- Every snapshot slot reads the same. -/
abbrev SameSnap (s t : State) : Prop := ∀ a, Memory.read t.snap a = Memory.read s.snap a

/-- The registers of the Connection State Machine agree. -/
abbrev SameConn (s t : State) : Prop := t.cstate = s.cstate ∧ t.tLast = s.tLast ∧ t.tTx = s.tTx

/-- The configuration, the passive flag and the host's queue agree. -/
abbrev SameControl (s t : State) : Prop := t.cfg = s.cfg ∧ t.passive = s.passive ∧ t.input = s.input

/-- The largest count R22 allows; GotInstID's bound depends on the Data length. -/
def countBound (s : State) : Nat :=
  match s.pstate with
  | .gotMsgType | .gotObjID => 1
  | .gotLength => 3
  | .gotInstID => dlenOf s.cfg (s.fLen.getD 0) - 1
  | .waitSync | .gotSync | .gotData | .gotCrc => 0

/-- How many Data cells hold a byte (R23). -/
def dataCount (s : State) : Nat :=
  match s.pstate with
  | .gotInstID => s.cnt.toNat
  | .gotData => dlenOf s.cfg (s.fLen.getD 0)
  | .waitSync | .gotSync | .gotMsgType | .gotLength | .gotObjID | .gotCrc => 0

/-- Which frame registers hold a value (R23): a register is complete from one parser state on, and partial in the state before
once a byte of it was taken. -/
abbrev RegistersHeld (s : State) : Prop :=
  s.fType.isSome = decide (2 ≤ s.pstate.rank) ∧
  s.fLen.isSome = (decide (3 ≤ s.pstate.rank) || (s.pstate == .gotMsgType && s.cnt != 0)) ∧
  s.fObjid.isSome = (decide (4 ≤ s.pstate.rank) || (s.pstate == .gotLength && s.cnt != 0)) ∧
  s.fInstid.isSome = (decide (5 ≤ s.pstate.rank) || (s.pstate == .gotObjID && s.cnt != 0))

/-- What the frame registers hold (R22 to R27, R41 I4): a legal MsgType; a Length in range once complete; no bits above the
bytes taken of a partial field; InstID 0 where H = 8. -/
abbrev RegistersLegal (s : State) : Prop :=
  s.fType.all (legalMsgType s.cfg) = true ∧
  (3 ≤ s.pstate.rank → s.fLen.all (legalLength s.cfg) = true) ∧
  (s.pstate = .gotMsgType → s.fLen.all (fun v => decide (v.toNat < 256)) = true) ∧
  (s.pstate = .gotLength → s.fObjid.all (fun v => decide (v.toNat < 256 ^ s.cnt.toNat)) = true) ∧
  (s.pstate = .gotObjID → s.fInstid.all (fun v => decide (v.toNat < 256)) = true) ∧
  (s.cfg.h = 8 → s.fInstid.all (fun v => v == 0) = true)

/-- The Data buffer (R23, R28): exactly the cells from 0 up to the count hold a byte, and in GotInstID at least one byte is
still to come (R41 I5). -/
abbrev DataHeld (s : State) : Prop :=
  s.dbuf.map (·.1) = List.range (dataCount s) ∧
  (s.pstate = .gotInstID → s.cnt.toNat < dlenOf s.cfg (s.fLen.getD 0))

/-- The snapshot (R31): canonical, and only slots that exist. -/
abbrev SnapHeld (s : State) : Prop := Memory.wf s.snap = true ∧ ∀ p ∈ s.snap, p.1 < s.cfg.nSlots

/-- The invariant of the reachable states: R23, R41 (I1 to I5), the configuration well formed (R12), `passive` as loaded at
RESET (R34), `crc` of CRC_W bits (R29). -/
abbrev State.Inv (s : State) : Prop :=
  configProblem s.cfg = none ∧
  s.pstate ≠ .gotCrc ∧
  (s.pstate = .gotObjID → s.cfg.h = 10) ∧
  (s.pstate = .waitSync → s.crc = s.cfg.crc.init) ∧
  s.cnt.toNat ≤ countBound s ∧
  RegistersHeld s ∧
  RegistersLegal s ∧
  DataHeld s ∧
  SnapHeld s ∧
  s.passive = s.cfg.passive ∧
  s.crc < 2 ^ s.cfg.crc.width

/-- The checksum invariant (R104): crc is the fold of the bytes the frame registers hold, in order of arrival. -/
abbrev State.ChecksumOk (s : State) : Prop := s.crc = crcFold s.cfg.crc s.cfg.crc.init s.wireSoFar

/-- The instructions that one BYTE event performs: BYTE itself, the wire bytes and the micro-operations. -/
def isByteStep : Instr → Bool
  | .byte _ _ | .msgObj _ | .msgObjReq _ | .msgObjAck _ | .msgAck _ | .msgNack _ | .msgIllegal _ _ | .sync _
  | .pWaitSync _ _ | .pGotSync _ _ | .pGotMsgType _ _ | .pGotLength _ _ | .pGotObjID _ _ | .pGotInstID _ _
  | .pGotData _ _ | .pGotCrc _ _ => true
  | .nop | .tick _ | .query | .reset | .illegalOp5 | .illegalOp6 | .illegalOp7 | .read _ _ | .crcInit | .crcUpd _
  | .crcFin | .dLookup | .dExtract _ | .dPublish _ | .cFrame _ | .cStats _ _ | .cTimeout _ | .cPeriod _ => false

/-- The sub-operations, which have no encoding (opcode_table.json). -/
def isSubOp : Instr → Bool
  | .crcInit | .crcUpd _ | .crcFin | .dLookup | .dExtract _ | .dPublish _ | .cFrame _ | .cStats _ _ | .cTimeout _
  | .cPeriod _ => true
  | .nop | .byte _ _ | .tick _ | .query | .reset | .illegalOp5 | .illegalOp6 | .illegalOp7 | .read _ _ | .msgObj _
  | .msgObjReq _ | .msgObjAck _ | .msgAck _ | .msgNack _ | .msgIllegal _ _ | .sync _ | .pWaitSync _ _ | .pGotSync _ _
  | .pGotMsgType _ _ | .pGotLength _ _ | .pGotObjID _ _ | .pGotInstID _ _ | .pGotData _ _ | .pGotCrc _ _ => false

/-- The operations the host can issue: the events of R82 and READ. -/
def isHostOp : Instr → Bool
  | .nop | .byte _ _ | .tick _ | .query | .reset | .read _ _ => true
  | .illegalOp5 | .illegalOp6 | .illegalOp7 | .msgObj _ | .msgObjReq _ | .msgObjAck _ | .msgAck _ | .msgNack _
  | .msgIllegal _ _ | .sync _ | .pWaitSync _ _ | .pGotSync _ _ | .pGotMsgType _ _ | .pGotLength _ _ | .pGotObjID _ _
  | .pGotInstID _ _ | .pGotData _ _ | .pGotCrc _ _ | .crcInit | .crcUpd _ | .crcFin | .dLookup | .dExtract _
  | .dPublish _ | .cFrame _ | .cStats _ _ | .cTimeout _ | .cPeriod _ => false

/-- A state with the passive flag, the outbound requests and their time left out: what R178 says passive mode does not
change. The result a READ returned is left out too, since it holds output records. -/
def State.withoutTx (s : State) : State :=
  { s with
    cfg := { s.cfg with passive := false }
    passive := false
    tTx := 0
    out := { s.out with tx := none }
    res := .nothing }

/-- A state without the model's own records of the last operation, and with none of the timer-driven registers: what BYTE
events alone determine of the parser and the snapshot (R142). -/
def State.parserView (s : State) : State :=
  { s with cstate := .disconnected, tLast := 0, tTx := 0, out := {}, res := .nothing }

/-- What a READ dispatched: each emitted frame with what the dispatcher did with it and published (R136, R150, R158). -/
def readDispatches (r : ReadResult) : List (Frame × Option DispatchResult × List (Nat × Word)) :=
  r.outs.filterMap fun o => o.frame.map fun f => (f, o.dres, o.pub)

/-- The frame registers and the Data buffer hold a frame (R136): every component but its Crc byte. -/
abbrev FrameHeld (s : State) (f : Frame) : Prop :=
  s.fType = some f.type ∧ s.fLen = some f.length ∧ s.fObjid = some f.objid ∧ s.fInstid = some f.instid ∧
    Memory.readBytes s.dbuf 0 (dlenOf s.cfg f.length) = some f.data

/-- An instruction completes: it answers a next state. -/
def Completes (r : Result) : Prop := ∃ t, r = .next t

end Sys2Proof.Machine
end

