-- ==== Sys2Proof/Certificates/Slice0/Obligations.lean ====
section
/-! DEFINITION. The statements about the model, one `def Obligations.<Name> : Prop` each; OBLIGATIONS.json lists them with the
rules of spec/ they rest on. Nothing is proved here.

The fields `input`, `out` and `res` of State are the model's own (assumption log entries 1, 10, 11, 16); what a statement says
of `input` and `res` is the model's choice and no rule of the spec. "D<n>" names a decision the spec marks as its own. -/

open Sys2Proof Sys2Proof.Machine

/-! ## Encoding -/

/-- Decoding what the encoder makes of a well-formed instruction gives the instruction back, every operand at every value. -/
def Obligations.DecodeGivesBackEncodedInstruction : Prop :=
  ∀ (cfg : Config) (i : Instr) (p : Packet), i.wf cfg = true → encode cfg i = some p → decode cfg p = .ok i

/-- No packet decodes to a sub-operation: those rows of the opcode table have no encoding. -/
def Obligations.DecoderNeverGivesSubOperation : Prop :=
  ∀ (cfg : Config) (p : Packet) (i : Instr), decode cfg p = .ok i → isSubOp i = false

/-- R83 (D1): the event word as a number, and the event it stands for. -/
def Obligations.EventWordLayoutAndMeaning : Prop :=
  ∀ (cfg : Config) (op : BitVec 3) (b : Byte) (now : Time) (s : State),
    asmLe (eventBytes op b now) = op.toNat * 2 ^ 40 + b.toNat * 2 ^ 32 + now.toNat ∧
    decode cfg (eventPacket op b now) =
      .ok (match op.toNat with
        | 0 => .nop
        | 1 => .byte b now
        | 2 => .tick now
        | 3 => .query
        | 4 => .reset
        | 5 => .illegalOp5
        | 6 => .illegalOp6
        | _ => .illegalOp7) ∧
    exec .nop s = .next { s with out := {}, res := .nothing } ∧
    exec .illegalOp5 s = .refused (.notAnEvent 5) ∧
    exec .illegalOp6 s = .refused (.notAnEvent 6) ∧
    exec .illegalOp7 s = .refused (.notAnEvent 7)

/-- A few words of the opcode table and of V-ENC-13, read by the decoder. -/
def Obligations.DecodesWordsWrittenFromTheSpec : Prop :=
  decodeTableWord 48 0x40000000000 = some .reset ∧
  decodeTableWord 48 0x13C000003E8 = some (.byte 0x3C 1000) ∧
  decodeTableWord 48 0x20000003A99 = some (.tick 15001) ∧
  decodeTableWord 48 0x30000000000 = some .query ∧
  decodeTableWord 48 0x00000000000 = some .nop ∧
  decodeTableWord 8 0x20 = some (.msgObj 0) ∧
  decodeTableWord 8 0x24 = some (.msgNack 0) ∧
  decodeTableWord 8 0x25 = some (.msgIllegal 0x25 0) ∧
  decodeTableWord 8 0x3C = some (.sync 0) ∧
  decodeTableWord 8 0x3 = some (.pGotLength 0 0)

/-- R87 (D13): the packed word of a field entry keeps every component. -/
def Obligations.PackedFieldEntryRoundTrip : Prop :=
  ∀ f : FieldEntry, f.slot < 2 ^ 16 → f.off < 2 ^ 8 →
    unpackField (packField f) = some f ∧
    (packField f).toNat =
      f.slot * 2 ^ 12 + f.off * 2 ^ 4 + (widthCode f.width).toNat * 2 ^ 2 + (fieldTypeCode f.ty).toNat

/-- R80: a byte is a legal MsgType exactly where its upper bits are the version tag and its low bits one of the five types. -/
def Obligations.LegalMsgTypeMap : Prop :=
  ∀ (cfg : Config) (b : Byte),
    (legalMsgType cfg b = true ↔
      b &&& cfg.verMask = cfg.verTag ∧
        (b &&& ~~~cfg.verMask = cfg.tObj ∨ b &&& ~~~cfg.verMask = cfg.tObjReq ∨ b &&& ~~~cfg.verMask = cfg.tObjAck ∨
          b &&& ~~~cfg.verMask = cfg.tAck ∨ b &&& ~~~cfg.verMask = cfg.tNack)) ∧
    (legalMsgType Config.default b = true ↔ b = 0x20 ∨ b = 0x21 ∨ b = 0x22 ∨ b = 0x23 ∨ b = 0x24)

/-- R76 and R52 (D5): the partial assembly of a header field, byte by byte, ends in asm_n of the bytes. -/
def Obligations.FieldAssemblyIsTheByteSum : Prop :=
  ∀ (b0 b1 b2 b3 : Byte),
    asmStep .le 3 (asmStep .le 2 (asmStep .le 1 (asmStep .le 0 (0 : Word) b0) b1) b2) b3 =
      BitVec.ofNat 32 (b0.toNat + b1.toNat * 2 ^ 8 + b2.toNat * 2 ^ 16 + b3.toNat * 2 ^ 24) ∧
    asmStep .be 3 (asmStep .be 2 (asmStep .be 1 (asmStep .be 0 (0 : Word) b0) b1) b2) b3 =
      BitVec.ofNat 32 (b0.toNat * 2 ^ 24 + b1.toNat * 2 ^ 16 + b2.toNat * 2 ^ 8 + b3.toNat) ∧
    asmStep .le 1 (asmStep .le 0 (0 : Half) b0) b1 = BitVec.ofNat 16 (b0.toNat + b1.toNat * 2 ^ 8) ∧
    asmStep .be 1 (asmStep .be 0 (0 : Half) b0) b1 = BitVec.ofNat 16 (b0.toNat * 2 ^ 8 + b1.toNat) ∧
    lengthOf .le (b0.setWidth 16) b1 = BitVec.ofNat 16 (b0.toNat + b1.toNat * 2 ^ 8) ∧
    lengthOf .be (b0.setWidth 16) b1 = BitVec.ofNat 16 (b0.toNat * 2 ^ 8 + b1.toNat)

/-! ## The step -/

/-- A step runs the instruction the oldest stimulus decodes to, on the state without that stimulus. -/
def Obligations.StepRunsTheDecodedInstruction : Prop :=
  ∀ (s : State) (p : Packet) (rest : List Packet) (i : Instr),
    configProblem s.cfg = none → s.input = p :: rest → decode s.cfg p = .ok i →
      step s = exec i { s with input := rest }

/-- R220: with nothing to deliver CORE is idle, and all its state survives. That an empty queue stands for "no event" is the
model's choice (assumption log entry 1). -/
def Obligations.StepIsIdleWithoutAStimulus : Prop :=
  ∀ s : State, configProblem s.cfg = none → s.input = [] → step s = .next { s with out := {}, res := .nothing }

/-- R12 (D13, D25): a configuration is well formed exactly where it meets the conditions of that rule; an ill-formed one is
refused by name. CRC_INIT below 2^CRC_W, and CRC_W = 8 for the default CRC-8, are the types of R11 (assumption log entry 7). -/
def Obligations.IllFormedConfigurationIsRefused : Prop :=
  (∀ cfg : Config, configProblem cfg = none ↔
    (cfg.h = 8 ∨ cfg.h = 10) ∧
    cfg.verTag &&& ~~~cfg.verMask = 0 ∧
    [cfg.tObj, cfg.tObjReq, cfg.tObjAck, cfg.tAck, cfg.tNack].Nodup ∧
    (∀ t ∈ [cfg.tObj, cfg.tObjReq, cfg.tObjAck, cfg.tAck, cfg.tNack], t ≤ ~~~cfg.verMask) ∧
    1 ≤ cfg.crc.width ∧
    cfg.crc.init < 2 ^ cfg.crc.width ∧
    (cfg.crc.alg = .crc8 → cfg.crc.width = 8) ∧
    (∀ d ∈ cfg.desc, ∀ f ∈ d.fields,
      f.off + widthBytes f.width ≤ 255 ∧ f.slot < cfg.nSlots ∧ (f.ty = .float → f.width = .w4)) ∧
    (cfg.desc.map (·.objid)).Nodup ∧
    (∀ d ∈ cfg.desc, (d.fields.map (·.slot)).Nodup) ∧
    [cfg.psDisc, cfg.psHsReq, cfg.psHsAck, cfg.psConn].Nodup ∧
    cfg.tConnect < 2 ^ 31 ∧
    cfg.tPeriod < 2 ^ 31) ∧
  ∀ (s : State) (p : ConfigProblem), configProblem s.cfg = some p → step s = .refused (.illFormedConfig p)

/-- A packet that is no instruction of its format is refused by the decoder's name for why (the model's choice, assumption log
entry 2). -/
def Obligations.UndecodablePacketIsRefused : Prop :=
  ∀ (s : State) (p : Packet) (rest : List Packet) (e : DecodeError),
    configProblem s.cfg = none → s.input = p :: rest → decode s.cfg p = .rejected e →
      step s = .refused (.undecodable e)

/-! ## Events -/

/-- R140 (D27): QUERY returns pstate and cstate and writes no state; a second QUERY returns the same; GotCrc is never returned.
-/
def Obligations.QueryReturnsTheTwoStates : Prop :=
  ∀ s : State, ∃ t,
    exec .query s = .next t ∧
    t = { s with out := { query := some (s.pstate, s.cstate) }, res := .nothing } ∧
    exec .query t = .next t ∧
    (s.Inv → t.out.query ≠ some (.gotCrc, s.cstate)) ∧
    (∀ r, exec .reset r = .next s → t.out.query = some (.waitSync, .disconnected))

/-- R230 and R40 (D22): RESET gives every item of state its reset value, with an output record of defaults; the first byte
after it is handled by P.WAITSYNC. The configuration and the host's queue stay. -/
def Obligations.ResetGivesTheResetValues : Prop :=
  ∀ s : State, ∃ t,
    exec .reset s = .next t ∧
    t.pstate = .waitSync ∧ t.cnt = 0 ∧ t.crc = s.cfg.crc.init ∧
    t.fType = none ∧ t.fLen = none ∧ t.fObjid = none ∧ t.fInstid = none ∧
    (∀ a, Memory.read t.dbuf a = none) ∧ (∀ a, Memory.read t.snap a = none) ∧
    t.cstate = .disconnected ∧ t.tLast = 0 ∧ t.tTx = 0 ∧ t.passive = s.cfg.passive ∧
    t.out = {} ∧ t.res = .nothing ∧ t.cfg = s.cfg ∧ t.input = s.input ∧
    ∀ b now, exec (.byte b now) t = exec (.pWaitSync b now) t

/-- R180 (D23): TICK is C.TIMEOUT and then C.PERIOD on the state it left, from an empty output record; it completes, touches no
parser state, not snap, not t_last, and sets no status. -/
def Obligations.TickRunsTimeoutThenPeriod : Prop :=
  ∀ (now : Time) (s : State), ∃ u t,
    exec (.cTimeout now) { s with out := {}, res := .nothing } = .next u ∧
    exec (.cPeriod now) u = .next t ∧
    exec (.tick now) s = .next t ∧
    SameRegs s t ∧ t.dbuf = s.dbuf ∧ t.snap = s.snap ∧ t.tLast = s.tLast ∧ SameControl s t ∧ t.out.status = none

/-- R120: a BYTE runs the micro-operation of the name of pstate, and in every state that meets the invariant it has a result
and sets the status. -/
def Obligations.ByteRunsTheSelectedMicroOperation : Prop :=
  ∀ (b : Byte) (now : Time) (s : State),
    (s.pstate = .waitSync → exec (.byte b now) s = exec (.pWaitSync b now) s) ∧
    (s.pstate = .gotSync → exec (.byte b now) s = exec (.pGotSync b now) s) ∧
    (s.pstate = .gotMsgType → exec (.byte b now) s = exec (.pGotMsgType b now) s) ∧
    (s.pstate = .gotLength → exec (.byte b now) s = exec (.pGotLength b now) s) ∧
    (s.pstate = .gotObjID → exec (.byte b now) s = exec (.pGotObjID b now) s) ∧
    (s.pstate = .gotInstID → exec (.byte b now) s = exec (.pGotInstID b now) s) ∧
    (s.pstate = .gotData → exec (.byte b now) s = exec (.pGotData b now) s) ∧
    (s.Inv → ∃ t, exec (.byte b now) s = .next t ∧ t.out.status.isSome = true)

/-- A micro-operation that pstate does not select is refused by name, and a BYTE with pstate = GotCrc, which no run reaches, is
a fault by name (the model's choice, assumption log entries 13 and 15). -/
def Obligations.UnselectedMicroOperationIsRefused : Prop :=
  ∀ (b : Byte) (now : Time) (s : State),
    (s.pstate ≠ .waitSync → exec (.pWaitSync b now) s = .refused (.notSelected s.pstate)) ∧
    (s.pstate ≠ .gotSync → exec (.pGotSync b now) s = .refused (.notSelected s.pstate)) ∧
    (s.pstate ≠ .gotMsgType → exec (.pGotMsgType b now) s = .refused (.notSelected s.pstate)) ∧
    (s.pstate ≠ .gotLength → exec (.pGotLength b now) s = .refused (.notSelected s.pstate)) ∧
    (s.pstate ≠ .gotObjID → exec (.pGotObjID b now) s = .refused (.notSelected s.pstate)) ∧
    (s.pstate ≠ .gotInstID → exec (.pGotInstID b now) s = .refused (.notSelected s.pstate)) ∧
    (s.pstate ≠ .gotData → exec (.pGotData b now) s = .refused (.notSelected s.pstate)) ∧
    (s.pstate ≠ .gotCrc → exec (.pGotCrc b now) s = .refused (.notSelected s.pstate)) ∧
    (s.pstate = .gotCrc → exec (.byte b now) s = .fault .heldGotCrc)

/-- R91 and R139 (D11, D23): READ is its BYTE steps in order and then one TICK, all of one time, and returns one status by
priority with the two counts. In every state that meets the invariant it completes. -/
def Obligations.ReadIsBytesThenTick : Prop :=
  ∀ (bs : List Byte) (now : Time) (s : State), s.Inv →
    ∃ u outs v,
      feedBytes now bs s = .next (u, outs) ∧
      outs.length = bs.length ∧
      exec (.tick now) u = .next v ∧
      exec (.read bs now) s = .next
        { v with
          res := .read
            { status :=
                if (∃ o ∈ outs, o.status = some .frameDispatched) then .frameDispatched
                else if (∃ o ∈ outs, o.status = some .frameDropped) then .frameDropped
                else if u.pstate ≠ .waitSync then .frameInProgress
                else .idle
              dispatches := (outs.filter fun o => o.status == some .frameDispatched).length
              drops := (outs.filter fun o => o.status == some .frameDropped).length
              outs := outs ++ [v.out] } }

/-- R90 (D26): BYTES is one BYTE step for each byte, in order, on the state the one before left. -/
def Obligations.BytesAreByteStepsInOrder : Prop :=
  ∀ (now : Time) (s : State),
    feedBytes now [] s = .next (s, []) ∧
    ∀ (b : Byte) (bs : List Byte) (r : State × List Output),
      feedBytes now (b :: bs) s = .next r ↔
        ∃ t u outs, exec (.byte b now) s = .next t ∧ feedBytes now bs t = .next (u, outs) ∧ r = (u, t.out :: outs)

/-! ## The Frame Parser -/

/-- R121 and R122 (whose status is D11): the sync marker in WaitSync starts a frame; any other byte there changes no state. -/
def Obligations.WaitSyncComparesWithTheMarker : Prop :=
  ∀ (b : Byte) (now : Time) (s : State), s.pstate = .waitSync →
    (b = s.cfg.syncVal →
      exec (.pWaitSync b now) s = .next
        { s with
          crc := crcUpdate s.cfg.crc s.cfg.crc.init b
          pstate := .gotSync
          cnt := 0
          out := { status := some .frameInProgress }
          res := .nothing }) ∧
    (b ≠ s.cfg.syncVal →
      exec (.pWaitSync b now) s = .next
        { s with out := { err := some .syncMismatch, status := some .idle }, res := .nothing })

/-- R123, R124 and R207: a legal MsgType byte in GotSync is taken; any other byte there is a discard. -/
def Obligations.GotSyncChecksTheMsgType : Prop :=
  ∀ (b : Byte) (now : Time) (s : State), s.pstate = .gotSync →
    (b &&& s.cfg.verMask = s.cfg.verTag ∧
        (b &&& ~~~s.cfg.verMask) ∈ [s.cfg.tObj, s.cfg.tObjReq, s.cfg.tObjAck, s.cfg.tAck, s.cfg.tNack] →
      exec (.pGotSync b now) s = .next
        { s with
          crc := crcUpdate s.cfg.crc s.crc b
          fType := some b
          cnt := 0
          pstate := .gotMsgType
          out := { status := some .frameInProgress }
          res := .nothing }) ∧
    (¬(b &&& s.cfg.verMask = s.cfg.verTag ∧
        (b &&& ~~~s.cfg.verMask) ∈ [s.cfg.tObj, s.cfg.tObjReq, s.cfg.tObjAck, s.cfg.tAck, s.cfg.tNack]) →
      exec (.pGotSync b now) s = .next
        { s with
          pstate := .waitSync
          cnt := 0
          crc := s.cfg.crc.init
          fType := none
          fLen := none
          fObjid := none
          fInstid := none
          dbuf := []
          out := { err := some .unsupportedMsgType, status := some .frameDropped }
          res := .nothing })

/-- R125: the first Length byte; no check is made on it alone. -/
def Obligations.FirstLengthByteIsTaken : Prop :=
  ∀ (b : Byte) (now : Time) (s : State), s.pstate = .gotMsgType → s.cnt = 0 →
    exec (.pGotMsgType b now) s = .next
      { s with
        crc := crcUpdate s.cfg.crc s.crc b
        fLen := some (b.setWidth 16)
        cnt := 1
        out := { status := some .frameInProgress }
        res := .nothing }

/-- R126 and R127: the second Length byte completes the value; in range it goes on to GotLength, out of range it is a discard.
-/
def Obligations.SecondLengthByteIsChecked : Prop :=
  ∀ (b : Byte) (now : Time) (s : State) (first v : Half), s.pstate = .gotMsgType → s.cnt = 1 → s.fLen = some first →
    v = (match s.cfg.byteOrder with
      | .le => b ++ first.extractLsb' 0 8
      | .be => first.extractLsb' 0 8 ++ b) →
    (s.cfg.h ≤ v.toNat ∧ v.toNat ≤ s.cfg.h + 255 →
      exec (.pGotMsgType b now) s = .next
        { s with
          crc := crcUpdate s.cfg.crc s.crc b
          fLen := some v
          cnt := 0
          pstate := .gotLength
          out := { status := some .frameInProgress }
          res := .nothing }) ∧
    (v.toNat < s.cfg.h ∨ s.cfg.h + 255 < v.toNat →
      exec (.pGotMsgType b now) s = .next
        { s with
          pstate := .waitSync
          cnt := 0
          crc := s.cfg.crc.init
          fType := none
          fLen := none
          fObjid := none
          fInstid := none
          dbuf := []
          out := { err := some .lengthOutOfRange, status := some .frameDropped }
          res := .nothing })

/-- R128 and R129 (what H = 8 does at the fourth byte is D10): each of the four ObjID bytes; the fourth goes on to GotObjID
where H = 10, and where H = 8 writes InstID 0 and goes on as R131 says. -/
def Obligations.ObjIdBytesAreTaken : Prop :=
  ∀ (b : Byte) (now : Time) (s : State) (len : Half) (id : Word), s.pstate = .gotLength → s.cnt.toNat ≤ 3 →
    s.fLen = some len →
    (s.cnt = 0 → id = 0) → (s.cnt ≠ 0 → s.fObjid = some id) →
    (s.cnt.toNat < 3 →
      exec (.pGotLength b now) s = .next
        { s with
          crc := crcUpdate s.cfg.crc s.crc b
          fObjid := some (asmStep s.cfg.byteOrder s.cnt.toNat id b)
          cnt := s.cnt + 1
          out := { status := some .frameInProgress }
          res := .nothing }) ∧
    (s.cnt = 3 → s.cfg.h = 10 →
      exec (.pGotLength b now) s = .next
        { s with
          crc := crcUpdate s.cfg.crc s.crc b
          fObjid := some (asmStep s.cfg.byteOrder 3 id b)
          cnt := 0
          pstate := .gotObjID
          out := { status := some .frameInProgress }
          res := .nothing }) ∧
    (s.cnt = 3 → s.cfg.h = 8 →
      exec (.pGotLength b now) s = .next
        { s with
          crc := crcUpdate s.cfg.crc s.crc b
          fObjid := some (asmStep s.cfg.byteOrder 3 id b)
          fInstid := some 0
          cnt := 0
          pstate := if len - 8 = 0 then .gotData else .gotInstID
          out := { status := some .frameInProgress }
          res := .nothing })

/-- R128 to R130, from byte to field: four bytes in GotLength form the ObjID, and two in GotObjID the InstID, as asm_n, the
checksum folds them all, and every step is frame-in-progress. -/
def Obligations.HeaderFieldsAreAssembled : Prop :=
  ∀ (now : Time) (s : State), s.Inv → s.cnt = 0 →
    (∀ b0 b1 b2 b3 : Byte, s.pstate = .gotLength →
      ∃ t outs, feedBytes now [b0, b1, b2, b3] s = .next (t, outs) ∧
        t.fObjid = some (BitVec.ofNat 32 (asm s.cfg.byteOrder [b0, b1, b2, b3])) ∧
        t.crc = crcFold s.cfg.crc s.crc [b0, b1, b2, b3] ∧ t.cnt = 0 ∧ t.fLen = s.fLen ∧ t.fType = s.fType ∧
        (s.cfg.h = 10 → t.pstate = .gotObjID) ∧ (s.cfg.h = 8 → t.pstate = .gotInstID ∨ t.pstate = .gotData) ∧
        ∀ o ∈ outs, o = { status := some .frameInProgress }) ∧
    (∀ b0 b1 : Byte, s.pstate = .gotObjID →
      ∃ t outs, feedBytes now [b0, b1] s = .next (t, outs) ∧
        t.fInstid = some (BitVec.ofNat 16 (asm s.cfg.byteOrder [b0, b1])) ∧
        t.crc = crcFold s.cfg.crc s.crc [b0, b1] ∧ t.cnt = 0 ∧ t.fLen = s.fLen ∧ t.fType = s.fType ∧
        t.fObjid = s.fObjid ∧ (t.pstate = .gotInstID ∨ t.pstate = .gotData) ∧
        ∀ o ∈ outs, o = { status := some .frameInProgress })

/-- R130 and R131: the two InstID bytes; after the second the parser goes to GotData where there is no Data, else to GotInstID.
-/
def Obligations.InstIdBytesAreTaken : Prop :=
  ∀ (b : Byte) (now : Time) (s : State), s.pstate = .gotObjID →
    (s.cnt = 0 →
      exec (.pGotObjID b now) s = .next
        { s with
          crc := crcUpdate s.cfg.crc s.crc b
          fInstid := some (b.setWidth 16)
          cnt := 1
          out := { status := some .frameInProgress }
          res := .nothing }) ∧
    ∀ (first len : Half), s.cnt = 1 → s.fInstid = some first → s.fLen = some len →
      exec (.pGotObjID b now) s = .next
        { s with
          crc := crcUpdate s.cfg.crc s.crc b
          fInstid := some (asmStep s.cfg.byteOrder 1 first b)
          cnt := 0
          pstate := if dlenOf s.cfg len = 0 then .gotData else .gotInstID
          out := { status := some .frameInProgress }
          res := .nothing }

/-- R132 and R133: a Data byte goes to cell `cnt` and to no other, and the last one ends in GotData. -/
def Obligations.DataByteGoesToItsCell : Prop :=
  ∀ (b : Byte) (now : Time) (s : State) (len : Half), s.pstate = .gotInstID → s.fLen = some len →
    s.cnt.toNat < dlenOf s.cfg len → s.cnt.toNat < 255 →
      ∃ dbuf, exec (.pGotInstID b now) s = .next
        { s with
          crc := crcUpdate s.cfg.crc s.crc b
          dbuf := dbuf
          cnt := if s.cnt.toNat + 1 < dlenOf s.cfg len then s.cnt + 1 else 0
          pstate := if s.cnt.toNat + 1 < dlenOf s.cfg len then .gotInstID else .gotData
          out := { status := some .frameInProgress }
          res := .nothing } ∧
        Memory.read dbuf s.cnt.toNat = some b ∧
        (∀ a, a ≠ s.cnt.toNat → Memory.read dbuf a = Memory.read s.dbuf a) ∧
        (Memory.wf s.dbuf = true → Memory.wf dbuf = true)

/-- R135 (D9): a Crc byte that does not match is a discard; nothing is emitted. -/
def Obligations.CrcMismatchDiscardsTheFrame : Prop :=
  ∀ (b : Byte) (now : Time) (s : State), s.pstate = .gotData → b ≠ crcFinal s.cfg.crc s.crc →
    exec (.pGotData b now) s = .next
      { s with
        pstate := .waitSync
        cnt := 0
        crc := s.cfg.crc.init
        fType := none
        fLen := none
        fObjid := none
        fInstid := none
        dbuf := []
        out := { err := some .crcMismatch, status := some .frameDropped }
        res := .nothing }

/-- R134, R136, R137, R173 (activity is D18; that P.GOTCRC keeps the output record of the step in progress and takes its byte
as operand is DEDUCED, assumption log entry 22): a Crc byte that matches hands the frame to P.GOTCRC in the same step, which
emits it to the dispatcher and to the Connection State Machine, which does what C.FRAME does on it, and ends in WaitSync with
the frame forgotten. -/
def Obligations.CrcMatchDispatchesTheFrame : Prop :=
  ∀ (b : Byte) (now : Time) (s : State) (f : Frame), configProblem s.cfg = none → FrameHeld s f → f.crc = b →
    let ended := fun (t : State) =>
      t.pstate = .waitSync ∧ t.cnt = 0 ∧ t.crc = s.cfg.crc.init ∧
      t.fType = none ∧ t.fLen = none ∧ t.fObjid = none ∧ t.fInstid = none ∧ (∀ a, Memory.read t.dbuf a = none) ∧
      t.out.frame = some f ∧ t.out.activity = true ∧ t.out.dres.isSome = true ∧ SameControl s t ∧
      ∃ v, exec (.cFrame now) s = .next v ∧ SameConn v t
    (s.pstate = .gotData → b = crcFinal s.cfg.crc s.crc → ∃ t,
      exec (.pGotData b now) s = .next t ∧
      exec (.pGotCrc b now) { s with pstate := .gotCrc, out := { status := some .frameDispatched }, res := .nothing } =
        .next t ∧
      t.out.status = some .frameDispatched ∧
      t.out.err = (if t.out.dres = some .unknown then some .unknownObjID else none) ∧ ended t) ∧
    (s.pstate = .gotCrc → ∃ t, exec (.pGotCrc b now) s = .next t ∧ t.out.status = s.out.status ∧ ended t)

/-- R80, R81, R123, R124: in GotSync the five legal MsgType bytes are taken, each as the byte of its type, and an illegal one
is a discard. -/
def Obligations.MsgTypeBytesInGotSync : Prop :=
  ∀ (now : Time) (s : State), s.pstate = .gotSync →
    (let taken := fun (m : Byte) =>
      ({ s with
        crc := crcUpdate s.cfg.crc s.crc m
        fType := some m
        cnt := 0
        pstate := .gotMsgType
        out := { status := some .frameInProgress }
        res := .nothing } : State)
    (legalMsgType s.cfg (s.cfg.verTag ||| s.cfg.tObj) = true →
      exec (.msgObj now) s = .next (taken (s.cfg.verTag ||| s.cfg.tObj))) ∧
    (legalMsgType s.cfg (s.cfg.verTag ||| s.cfg.tObjReq) = true →
      exec (.msgObjReq now) s = .next (taken (s.cfg.verTag ||| s.cfg.tObjReq))) ∧
    (legalMsgType s.cfg (s.cfg.verTag ||| s.cfg.tObjAck) = true →
      exec (.msgObjAck now) s = .next (taken (s.cfg.verTag ||| s.cfg.tObjAck))) ∧
    (legalMsgType s.cfg (s.cfg.verTag ||| s.cfg.tAck) = true →
      exec (.msgAck now) s = .next (taken (s.cfg.verTag ||| s.cfg.tAck))) ∧
    (legalMsgType s.cfg (s.cfg.verTag ||| s.cfg.tNack) = true →
      exec (.msgNack now) s = .next (taken (s.cfg.verTag ||| s.cfg.tNack)))) ∧
    ∀ b : Byte, legalMsgType s.cfg b = false →
      exec (.msgIllegal b now) s = .next
        { s with
          pstate := .waitSync
          cnt := 0
          crc := s.cfg.crc.init
          fType := none
          fLen := none
          fObjid := none
          fInstid := none
          dbuf := []
          out := { err := some .unsupportedMsgType, status := some .frameDropped }
          res := .nothing }

/-- R71 and R146 (that the rows SYNC and MSG.* are bytes of BYTE events in any state is assumption log entry 14): the marker
starts a frame in WaitSync; in every other state it, and a MsgType byte outside GotSync, is the byte of an ordinary BYTE step.
-/
def Obligations.WireBytesAreOrdinaryElsewhere : Prop :=
  ∀ (b : Byte) (now : Time) (s : State),
    (s.pstate = .waitSync → exec (.sync now) s = .next
      { s with
        crc := crcUpdate s.cfg.crc s.cfg.crc.init s.cfg.syncVal
        pstate := .gotSync
        cnt := 0
        out := { status := some .frameInProgress }
        res := .nothing }) ∧
    exec (.sync now) s = exec (.byte s.cfg.syncVal now) s ∧
    exec (.msgObj now) s = exec (.byte (s.cfg.verTag ||| s.cfg.tObj) now) s ∧
    exec (.msgObjReq now) s = exec (.byte (s.cfg.verTag ||| s.cfg.tObjReq) now) s ∧
    exec (.msgObjAck now) s = exec (.byte (s.cfg.verTag ||| s.cfg.tObjAck) now) s ∧
    exec (.msgAck now) s = exec (.byte (s.cfg.verTag ||| s.cfg.tAck) now) s ∧
    exec (.msgNack now) s = exec (.byte (s.cfg.verTag ||| s.cfg.tNack) now) s ∧
    exec (.msgIllegal b now) s = exec (.byte b now) s

/-- R144 (derived in the spec from R122): a stream without the marker leaves the parser in WaitSync, every status idle, nothing
emitted and nothing changed. -/
def Obligations.NoSyncStreamStaysInWaitSync : Prop :=
  ∀ (now : Time) (bs : List Byte) (s : State), s.pstate = .waitSync → (∀ b ∈ bs, b ≠ s.cfg.syncVal) →
    ∃ t outs, feedBytes now bs s = .next (t, outs) ∧ { t with out := s.out, res := s.res } = s ∧
      ∀ o ∈ outs, o = { err := some .syncMismatch, status := some .idle }

/-- R143 (derived in the spec from R141): from any state of a run the parser is back in WaitSync after at most H + 256 further
bytes, whatever they are. -/
def Obligations.ParserReturnsWithinBound : Prop :=
  ∀ (now : Time) (bs : List Byte) (s : State), s.Inv → s.cfg.h + 256 ≤ bs.length →
    ∃ k t outs, 1 ≤ k ∧ k ≤ s.cfg.h + 256 ∧ feedBytes now (bs.take k) s = .next (t, outs) ∧ t.pstate = .waitSync

/-- R142 (derived in the spec): bytes delivered in two READs give the parser and snapshot state of the same bytes in one, the
same frames dispatched in the same order with the same outcome, and the same counts in sum. -/
def Obligations.ChunkingDoesNotMatter : Prop :=
  ∀ (as bs : List Byte) (t1 t2 t3 : Time) (s : State), s.Inv →
    ∃ one first two, exec (.read (as ++ bs) t1) s = .next one ∧ exec (.read as t2) s = .next first ∧
      exec (.read bs t3) first = .next two ∧ one.parserView = two.parserView ∧
      ∃ r r1 r2, one.res = .read r ∧ first.res = .read r1 ∧ two.res = .read r2 ∧
        readDispatches r = readDispatches r1 ++ readDispatches r2 ∧
        r.dispatches = r1.dispatches + r2.dispatches ∧ r.drops = r1.drops + r2.drops

/-- R134, R136 and R92: from WaitSync the bytes of a well-formed frame of a legal type and at most 255 Data bytes are all
frame-in-progress but the last, which emits exactly that frame and ends in WaitSync. -/
def Obligations.WellFormedFrameIsEmitted : Prop :=
  ∀ (now : Time) (s : State) (type : Byte) (objid : Word) (instid : Half) (data : List Byte),
    s.Inv → s.pstate = .waitSync → legalMsgType s.cfg (s.cfg.verTag ||| type) = true → data.length ≤ 255 →
      ∃ t outs last, feedBytes now (frameBytes s.cfg type objid instid data) s = .next (t, outs ++ [last]) ∧
        (∀ o ∈ outs, o = { status := some .frameInProgress }) ∧
        last.status = some .frameDispatched ∧ last.activity = true ∧ t.out = last ∧ t.pstate = .waitSync ∧
        last.frame = some
          { type := s.cfg.verTag ||| type
            length := BitVec.ofNat 16 (s.cfg.h + data.length)
            objid := objid
            instid := if s.cfg.h = 10 then instid else 0
            data := data
            crc := frameCrc s.cfg (frameBody s.cfg type objid instid data) }

/-- R145 (derived in the spec): a frame with any wrong Crc byte, followed by a valid frame, gives exactly one dispatch and one
drop, and the dispatched frame is the second. -/
def Obligations.RecoversAfterBadCrc : Prop :=
  ∀ (now : Time) (s : State) (type type' : Byte) (objid objid' : Word) (instid instid' : Half) (data data' : List Byte)
    (wrong : Byte),
    wrong ≠ frameCrc s.cfg (frameBody s.cfg type objid instid data) →
    s.Inv → s.pstate = .waitSync → legalMsgType s.cfg (s.cfg.verTag ||| type) = true →
    legalMsgType s.cfg (s.cfg.verTag ||| type') = true → data.length ≤ 255 → data'.length ≤ 255 →
      ∃ t r,
        exec (.read (frameBody s.cfg type objid instid data ++ [wrong] ++ frameBytes s.cfg type' objid' instid' data') now) s
          = .next t ∧
        t.res = .read r ∧ r.status = .frameDispatched ∧ r.dispatches = 1 ∧ r.drops = 1 ∧
        r.outs.filterMap (·.frame) =
          [{ type := s.cfg.verTag ||| type'
             length := BitVec.ofNat 16 (s.cfg.h + data'.length)
             objid := objid'
             instid := if s.cfg.h = 10 then instid' else 0
             data := data'
             crc := frameCrc s.cfg (frameBody s.cfg type' objid' instid' data') }]

/-! ## The CRC Engine -/

/-- R101 to R103: CRC.INIT, CRC.UPD and CRC.FIN, each on every state; nothing but crc, or the result, is written. -/
def Obligations.CrcOperationsWriteOnlyCrc : Prop :=
  ∀ (b : Byte) (s : State),
    exec .crcInit s = .next { s with crc := s.cfg.crc.init } ∧
    exec (.crcUpd b) s = .next { s with crc := crcUpdate s.cfg.crc s.crc b } ∧
    exec .crcFin s = .next { s with res := .crcByte (crcFinal s.cfg.crc s.crc) }

/-- R110 (D6, from general knowledge; assumption log entry 5): the default update as exclusive-ors of the bits of c ^ b. -/
def Obligations.DefaultCrcEquations : Prop :=
  ∀ c b : Byte,
    let x := fun i => (c ^^^ b).getLsbD i
    let n := fun i => (crc8Update c b).getLsbD i
    n 0 = (x 0 ^^ x 6 ^^ x 7) ∧ n 1 = (x 0 ^^ x 1 ^^ x 6) ∧ n 2 = (x 0 ^^ x 1 ^^ x 2 ^^ x 6) ∧
    n 3 = (x 1 ^^ x 2 ^^ x 3 ^^ x 7) ∧ n 4 = (x 2 ^^ x 3 ^^ x 4) ∧ n 5 = (x 3 ^^ x 4 ^^ x 5) ∧
    n 6 = (x 4 ^^ x 5 ^^ x 6) ∧ n 7 = (x 5 ^^ x 6 ^^ x 7)

/-- R111 (a) to (d) (D6, from general knowledge; assumption log entry 5): the default update is linear, depends on c ^ b only,
is a bijection in either argument, keeps zero, and folding a message with its own checksum gives zero. -/
def Obligations.DefaultCrcLaws : Prop :=
  (∀ a b : Byte, crc8Update 0 (a ^^^ b) = crc8Update 0 a ^^^ crc8Update 0 b) ∧
  (∀ c b : Byte, crc8Update c b = crc8Update 0 c ^^^ crc8Update 0 b) ∧
  (∀ b : Byte, Function.Bijective fun c => crc8Update c b) ∧
  (∀ c : Byte, Function.Bijective fun b => crc8Update c b) ∧
  crc8Update 0 0 = 0 ∧
  ∀ m : List Byte, crcFold Config.default.crc 0 (m ++ [BitVec.ofNat 8 (crcFold Config.default.crc 0 m)]) = 0

/-! ## The Object Dispatcher -/

/-- R151 to R153 (D13, D14; that the row reports the fit check too is assumption log entry 21): D.LOOKUP finds the descriptor
of the 32-bit ObjID; a miss reports Unknown and UnknownObjID, a hit that does not fit reports Short, and nothing else is
written. -/
def Obligations.LookupFindsTheDescriptor : Prop :=
  ∀ (s : State) (objid : Word) (len : Half), s.fObjid = some objid → s.fLen = some len →
    ((∀ d ∈ s.cfg.desc, d.objid ≠ objid) →
      exec .dLookup s = .next
        { s with out := { s.out with dres := some .unknown, err := some .unknownObjID }, res := .lookup none }) ∧
    ∀ (before after : List Descriptor) (d : Descriptor), s.cfg.desc = before ++ d :: after → d.objid = objid →
      (∀ e ∈ before, e.objid ≠ objid) →
      ((∀ f ∈ d.fields, f.off + widthBytes f.width ≤ dlenOf s.cfg len) →
        exec .dLookup s = .next { s with res := .lookup (some d) }) ∧
      ((∃ f ∈ d.fields, dlenOf s.cfg len < f.off + widthBytes f.width) →
        exec .dLookup s = .next { s with out := { s.out with dres := some .short }, res := .lookup (some d) })

/-- R154 to R156 (D13): D.EXTRACT gives the bytes of the field, assembled in the configured order, as the number its type says:
unsigned for UINT and ENUM, two's complement for SINT, the unchanged 32 bits for FLOAT. It writes nothing else. -/
def Obligations.ExtractGivesTheTypedValue : Prop :=
  ∀ (s : State) (f : FieldEntry) (bs : List Byte),
    Memory.readBytes s.dbuf f.off (widthBytes f.width) = some bs →
      ∃ v : Word, exec (.dExtract f) s = .next { s with res := .value v } ∧
        (f.ty = .sint →
          v.toInt = (if asm s.cfg.byteOrder bs < 2 ^ (8 * widthBytes f.width - 1) then (asm s.cfg.byteOrder bs : Int)
            else (asm s.cfg.byteOrder bs : Int) - 2 ^ (8 * widthBytes f.width))) ∧
        (f.ty ≠ .sint → v.toNat = asm s.cfg.byteOrder bs)

/-- R52 and R53: under LE the n bytes at offset a are the bit slice of the whole buffer's number, under BE its byte reversal.
-/
def Obligations.FieldReadIsABitSlice : Prop :=
  ∀ (m : Memory Byte) (dlen a n : Nat) (data : List Byte),
    Memory.readBytes m 0 dlen = some data → a + n ≤ dlen →
      ∃ bs, Memory.readBytes m a n = some bs ∧
        asm .le bs = asm .le data / 2 ^ (8 * a) % 2 ^ (8 * n) ∧
        asm .be bs.reverse = asm .le data / 2 ^ (8 * a) % 2 ^ (8 * n)

/-- R158 (D15): D.PUBLISH writes every named slot in one step and no other, keeps the canonical form, and reports the list;
R31: a slot at or above N_SLOTS does not exist, and the publication stops there by name (assumption log entry 15). -/
def Obligations.PublishWritesExactlyTheNamedSlots : Prop :=
  ∀ (s : State) (pairs : List (Nat × Word)),
    ((∀ p ∈ pairs, p.1 < s.cfg.nSlots) → (pairs.map (·.1)).Nodup →
      ∃ snap, exec (.dPublish pairs) s = .next
          { s with snap := snap, out := { s.out with pub := pairs, dres := some .published } } ∧
        (∀ p ∈ pairs, Memory.read snap p.1 = some p.2) ∧
        (∀ k, k ∉ pairs.map (·.1) → Memory.read snap k = Memory.read s.snap k) ∧
        (Memory.wf s.snap = true → Memory.wf snap = true)) ∧
    ((∃ p ∈ pairs, s.cfg.nSlots ≤ p.1) → exec (.dPublish pairs) s = .fault .noSuchSlot)

/-- R150, R152, R153 (D14), R158 (D15), R162: in a dispatch step an unknown ObjID and a payload too short publish nothing;
otherwise every field of the descriptor is published, in order; in every case the status is frame-dispatched. -/
def Obligations.DispatchPublishesAllOrNothing : Prop :=
  ∀ (b : Byte) (now : Time) (s : State) (f : Frame), s.Inv → s.pstate = .gotData → b = crcFinal s.cfg.crc s.crc →
    FrameHeld s f → f.crc = b →
      ∃ t, exec (.byte b now) s = .next t ∧ t.out.status = some .frameDispatched ∧ t.out.frame = some f ∧
        t.pstate = .waitSync ∧
        ((∀ d ∈ s.cfg.desc, d.objid ≠ f.objid) →
          t.out.dres = some .unknown ∧ t.out.err = some .unknownObjID ∧ t.out.pub = [] ∧ t.snap = s.snap) ∧
        (∀ d ∈ s.cfg.desc, d.objid = f.objid → (∃ g ∈ d.fields, f.data.length < g.off + widthBytes g.width) →
          t.out.dres = some .short ∧ t.out.err = none ∧ t.out.pub = [] ∧ t.snap = s.snap) ∧
        (∀ d ∈ s.cfg.desc, d.objid = f.objid → (∀ g ∈ d.fields, g.off + widthBytes g.width ≤ f.data.length) →
          t.out.dres = some .published ∧ t.out.err = none ∧
          t.out.pub = d.fields.map (fun g =>
            (g.slot, extend g.ty (widthBytes g.width)
              (asm s.cfg.byteOrder ((f.data.drop g.off).take (widthBytes g.width))))) ∧
          (∀ p ∈ t.out.pub, Memory.read t.snap p.1 = some p.2) ∧
          ∀ k, k ∉ d.fields.map (·.slot) → Memory.read t.snap k = Memory.read s.snap k)

/-- R161 (derived in the spec): for a configured descriptor and Data that carries, at each of its fields, the bytes of a value
of the field's width, the frame of that Data, delivered from WaitSync, publishes every value, extended as its type says. -/
def Obligations.FieldValuesRoundTrip : Prop :=
  ∀ (now : Time) (s : State) (d : Descriptor) (value : FieldEntry → Nat) (data : List Byte),
    s.Inv → s.pstate = .waitSync → legalMsgType s.cfg (s.cfg.verTag ||| s.cfg.tObj) = true → data.length ≤ 255 →
    d ∈ s.cfg.desc →
    (∀ f ∈ d.fields, f.off + widthBytes f.width ≤ data.length ∧ value f < 256 ^ widthBytes f.width ∧
      (data.drop f.off).take (widthBytes f.width) = bytesOf s.cfg.byteOrder (widthBytes f.width) (value f)) →
      ∃ t outs, feedBytes now (frameBytes s.cfg s.cfg.tObj d.objid 0 data) s = .next (t, outs) ∧
        ∀ f ∈ d.fields, Memory.read t.snap f.slot = some (extend f.ty (widthBytes f.width) (value f))

/-! ## The Connection State Machine -/

/-- R173 and R174 (D16, D18): C.FRAME raises activity; it is C.STATS of the byte at STATS_STATUS_OFF on a valid stats frame,
and nothing else on any other frame. -/
def Obligations.FrameRunsStatsOnlyOnValidStats : Prop :=
  ∀ (now : Time) (s : State) (f : Frame), FrameHeld s f →
    (∀ ps, f.objid = s.cfg.statsObjId → f.data[s.cfg.statsStatusOff.val]? = some ps →
      ∃ t, exec (.cFrame now) s = .next t ∧
        exec (.cStats ps now) { s with out := { s.out with activity := true } } = .next t) ∧
    (f.objid ≠ s.cfg.statsObjId ∨ f.data.length ≤ s.cfg.statsStatusOff.val →
      exec (.cFrame now) s = .next { s with out := { s.out with activity := true } })

/-- R176 and R179 (D17, D20): C.STATS refreshes t_last, and makes the one forward transition that the state and the peer status
call for, with a request and a restart of the period unless passive; any other pair changes nothing more. -/
def Obligations.StatsMakesAtMostOneForwardStep : Prop :=
  ∀ (ps : Byte) (now : Time) (s : State),
    (∀ new : CState,
      (s.cstate = .disconnected ∧ ps = s.cfg.psHsReq ∧ new = .handshakeRequested) ∨
      (s.cstate = .handshakeRequested ∧ ps = s.cfg.psHsAck ∧ new = .handshakeAcknowledged) ∨
      (s.cstate = .handshakeAcknowledged ∧ ps = s.cfg.psConn ∧ new = .connected) →
        exec (.cStats ps now) s = .next
          { s with
            tLast := now
            cstate := new
            tTx := if s.passive then s.tTx else now
            out :=
              { s.out with
                stats := some ps
                cev := some (s.cstate, new)
                tx := if s.passive then s.out.tx else some .stats } }) ∧
    (¬(s.cstate = .disconnected ∧ ps = s.cfg.psHsReq) ∧ ¬(s.cstate = .handshakeRequested ∧ ps = s.cfg.psHsAck) ∧
      ¬(s.cstate = .handshakeAcknowledged ∧ ps = s.cfg.psConn) →
        exec (.cStats ps now) s = .next { s with tLast := now, out := { s.out with stats := some ps } })

/-- R181 (D19): C.TIMEOUT demotes a link that is not Disconnected strictly after T_CONNECT since the last valid stats frame,
and does nothing otherwise. -/
def Obligations.TimeoutDemotesStaleLink : Prop :=
  ∀ (now : Time) (s : State),
    (s.cstate ≠ .disconnected → s.cfg.tConnect < (now - s.tLast).toNat →
      exec (.cTimeout now) s = .next
        { s with
          cstate := .disconnected
          out := { s.out with cev := some (s.cstate, .disconnected), err := some .handshakeTimeout } }) ∧
    (s.cstate = .disconnected ∨ (now - s.tLast).toNat ≤ s.cfg.tConnect → exec (.cTimeout now) s = .next s)

/-- R182 and R189 (derived in the spec): once Disconnected, no further TICK reports or requests anything, however many there
are. -/
def Obligations.OneDemotionPerStaleInterval : Prop :=
  ∀ (nows : List Time) (s t : State) (now : Time),
    exec (.tick now) s = .next t → t.out.err = some .handshakeTimeout →
      runEvents (nows.map Instr.tick) t = .next ({ t with out := if nows = [] then t.out else {} }, nows.map fun _ => {})

/-- R183 (D20): C.PERIOD requests a stats frame, and restarts the period, exactly where the link is not Disconnected, not
passive, and at least T_PERIOD has passed since the last request. -/
def Obligations.PeriodRequestsStats : Prop :=
  ∀ (now : Time) (s : State),
    (s.cstate ≠ .disconnected → s.passive = false → s.cfg.tPeriod ≤ (now - s.tTx).toNat →
      exec (.cPeriod now) s = .next { s with tTx := now, out := { s.out with tx := some .stats } }) ∧
    (s.cstate = .disconnected ∨ s.passive = true ∨ (now - s.tTx).toNat < s.cfg.tPeriod →
      exec (.cPeriod now) s = .next s)

/-- R187 (derived in the spec): with passive mode on, no step of a run requests an outbound frame, and the mode stays on. -/
def Obligations.PassiveModeNeverRequests : Prop :=
  ∀ s t : State, s.Inv → s.passive = true → step s = .next t →
    t.passive = true ∧ t.out.tx = none ∧ ∀ r, t.res = .read r → ∀ o ∈ r.outs, o.tx = none

/-- R178 (derived in the spec): passive mode changes only the requests and their time: from states that agree but for them,
every instruction gives states that agree but for them. -/
def Obligations.PassiveModeChangesOnlyRequests : Prop :=
  ∀ (i : Instr) (s u s' : State), s.withoutTx = u.withoutTx → exec i s = .next s' →
    ∃ u', exec i u = .next u' ∧ s'.withoutTx = u'.withoutTx

/-- R190 (derived in the spec): from Disconnected, the three stats frames of the handshake, with no TICK between them, connect
the link, and each transition sets a request unless passive. -/
def Obligations.ThreeStatsFramesConnect : Prop :=
  ∀ (t1 t2 t3 : Time) (s : State), s.Inv → s.pstate = .waitSync → s.cstate = .disconnected →
    legalMsgType s.cfg (s.cfg.verTag ||| s.cfg.tObj) = true →
      ∃ a b c oa ob oc,
        feedBytes t1 (statsBytes s.cfg s.cfg.psHsReq) s = .next (a, oa) ∧
        feedBytes t2 (statsBytes s.cfg s.cfg.psHsAck) a = .next (b, ob) ∧
        feedBytes t3 (statsBytes s.cfg s.cfg.psConn) b = .next (c, oc) ∧
        a.cstate = .handshakeRequested ∧ b.cstate = .handshakeAcknowledged ∧ c.cstate = .connected ∧
        c.tLast = t3 ∧ c.out.cev = some (.handshakeAcknowledged, .connected) ∧
        (s.passive = false → a.out.tx = some .stats ∧ b.out.tx = some .stats ∧ c.out.tx = some .stats)

/-! ## Whole-machine rules -/

/-- The state after reset meets both invariants. -/
def Obligations.ResetStateMeetsTheInvariants : Prop :=
  State.reset.Inv ∧ State.reset.ChecksumOk

/-- R41 (I1 to I5, derived in the spec) and R23 (D24): every step keeps the invariant. -/
def Obligations.StepKeepsTheInvariant : Prop :=
  ∀ s t : State, s.Inv → step s = .next t → t.Inv

/-- R104 (derived in the spec): every step keeps the checksum invariant: crc is the fold of the frame's bytes so far. -/
def Obligations.StepKeepsTheChecksum : Prop :=
  ∀ s t : State, s.Inv → s.ChecksumOk → step s = .next t → t.ChecksumOk

/-- R8 and R202: no event of the host, and no READ, stops in a state that meets the invariant. -/
def Obligations.NoEventStops : Prop :=
  ∀ (i : Instr) (s : State), s.Inv → isHostOp i = true → Completes (exec i s)

/-- R36 and R34 (D21): no instruction writes the configuration, none but RESET the passive flag, and QUERY returns no
parameter. That the host's queue stays is the model's choice (assumption log entry 1). -/
def Obligations.ConfigurationIsReadOnly : Prop :=
  ∀ (i : Instr) (s t : State), exec i s = .next t →
    t.cfg = s.cfg ∧ t.input = s.input ∧ (i ≠ .reset → t.passive = s.passive) ∧
    (i = .query → t.out = { query := some (s.pstate, s.cstate) })

/-- R42: a byte step that is not a dispatch step writes neither snap nor the Connection State Machine, and none changes cstate
or t_last but by a valid stats frame; TICK writes only cstate and t_tx; QUERY and NOP write nothing; a sub-operation writes no
frame register and no Data cell, crc only as CRC.INIT or CRC.UPD, snap only as D.PUBLISH, and cstate, t_last, t_tx only as an
operation of the Connection State Machine. -/
def Obligations.ComponentsOwnTheirState : Prop :=
  ∀ (i : Instr) (s t : State), exec i s = .next t →
    (isByteStep i = true → t.out.frame = none → SameSnap s t ∧ SameConn s t) ∧
    (isByteStep i = true → t.cstate ≠ s.cstate ∨ t.tLast ≠ s.tLast → t.out.stats.isSome = true) ∧
    (∀ now, i = .tick now → SameRegs s t ∧ SameData s t ∧ SameSnap s t ∧ t.tLast = s.tLast) ∧
    (i = .query ∨ i = .nop → SameRegs s t ∧ SameData s t ∧ SameSnap s t ∧ SameConn s t) ∧
    (isSubOp i = true →
      SameRegs { s with crc := t.crc } t ∧ SameData s t ∧
      (t.crc ≠ s.crc → i = .crcInit ∨ ∃ b, i = .crcUpd b) ∧
      (¬SameSnap s t → ∃ ps, i = .dPublish ps) ∧
      (¬SameConn s t →
        (∃ now, i = .cFrame now) ∨ (∃ ps now, i = .cStats ps now) ∨ (∃ now, i = .cTimeout now) ∨ ∃ now, i = .cPeriod now))

/-- R141 (derived in the spec): a byte step moves pstate only along the edges of the table. -/
def Obligations.ParserMovesAlongTheEdges : Prop :=
  ∀ (b : Byte) (now : Time) (s t : State), exec (.byte b now) s = .next t →
    (s.pstate, t.pstate) ∈
      [(.waitSync, .gotSync), (.waitSync, .waitSync), (.gotSync, .gotMsgType), (.gotSync, .waitSync),
       (.gotMsgType, .gotMsgType), (.gotMsgType, .gotLength), (.gotMsgType, .waitSync), (.gotLength, .gotLength),
       (.gotLength, .gotObjID), (.gotLength, .gotInstID), (.gotLength, .gotData), (.gotObjID, .gotObjID),
       (.gotObjID, .gotInstID), (.gotObjID, .gotData), (.gotInstID, .gotInstID), (.gotInstID, .gotData),
       (.gotData, .waitSync)]

/-- R86 and R213 (D2, D23): a cycle with both a byte and a tick performs the BYTE step first and the TICK step second, at one
time; a cycle with reset performs RESET alone. -/
def Obligations.CycleRunsByteThenTick : Prop :=
  ∀ (n : Nat) (p : PortIn) (s : State),
    (p.rst = true → ∃ t o, exec .reset s = .next t ∧ cycle n p s = .next (t, o) ∧ o.pstate = 0 ∧ o.cstate = 0) ∧
    (p.rst = false → p.inValid = true → p.tick = true → ∀ u t,
      exec (.byte p.inByte p.now) s = .next u → exec (.tick p.now) u = .next t →
        ∃ o, cycle n p s = .next (t, o) ∧ o.pstate = pstateCode t.pstate ∧ o.cstate = cstateCode t.cstate ∧
          o.txReq = (u.out.tx.isSome || t.out.tx.isSome) ∧ o.inReady = true)
end

