-- ==== Sys2Proof/Laws/State.lean ====
section
/-! SUPPORT. One lemma per field per named update of the state, each true by computation, so that no later proof unfolds a
record update. -/

namespace Sys2Proof.Machine

variable (s : State)

/-! beginStep -/

@[simp] theorem State.beginStep_cfg : s.beginStep.cfg = s.cfg := rfl
@[simp] theorem State.beginStep_pstate : s.beginStep.pstate = s.pstate := rfl
@[simp] theorem State.beginStep_cnt : s.beginStep.cnt = s.cnt := rfl
@[simp] theorem State.beginStep_crc : s.beginStep.crc = s.crc := rfl
@[simp] theorem State.beginStep_fType : s.beginStep.fType = s.fType := rfl
@[simp] theorem State.beginStep_fLen : s.beginStep.fLen = s.fLen := rfl
@[simp] theorem State.beginStep_fObjid : s.beginStep.fObjid = s.fObjid := rfl
@[simp] theorem State.beginStep_fInstid : s.beginStep.fInstid = s.fInstid := rfl
@[simp] theorem State.beginStep_dbuf : s.beginStep.dbuf = s.dbuf := rfl
@[simp] theorem State.beginStep_snap : s.beginStep.snap = s.snap := rfl
@[simp] theorem State.beginStep_cstate : s.beginStep.cstate = s.cstate := rfl
@[simp] theorem State.beginStep_tLast : s.beginStep.tLast = s.tLast := rfl
@[simp] theorem State.beginStep_tTx : s.beginStep.tTx = s.tTx := rfl
@[simp] theorem State.beginStep_passive : s.beginStep.passive = s.passive := rfl
@[simp] theorem State.beginStep_input : s.beginStep.input = s.input := rfl
@[simp] theorem State.beginStep_out : s.beginStep.out = {} := rfl
@[simp] theorem State.beginStep_res : s.beginStep.res = .nothing := rfl

/-! answer -/

@[simp] theorem State.answer_cfg (r : OpResult) : (s.answer r).cfg = s.cfg := rfl
@[simp] theorem State.answer_pstate (r : OpResult) : (s.answer r).pstate = s.pstate := rfl
@[simp] theorem State.answer_cnt (r : OpResult) : (s.answer r).cnt = s.cnt := rfl
@[simp] theorem State.answer_crc (r : OpResult) : (s.answer r).crc = s.crc := rfl
@[simp] theorem State.answer_fType (r : OpResult) : (s.answer r).fType = s.fType := rfl
@[simp] theorem State.answer_fLen (r : OpResult) : (s.answer r).fLen = s.fLen := rfl
@[simp] theorem State.answer_fObjid (r : OpResult) : (s.answer r).fObjid = s.fObjid := rfl
@[simp] theorem State.answer_fInstid (r : OpResult) : (s.answer r).fInstid = s.fInstid := rfl
@[simp] theorem State.answer_dbuf (r : OpResult) : (s.answer r).dbuf = s.dbuf := rfl
@[simp] theorem State.answer_snap (r : OpResult) : (s.answer r).snap = s.snap := rfl
@[simp] theorem State.answer_cstate (r : OpResult) : (s.answer r).cstate = s.cstate := rfl
@[simp] theorem State.answer_tLast (r : OpResult) : (s.answer r).tLast = s.tLast := rfl
@[simp] theorem State.answer_tTx (r : OpResult) : (s.answer r).tTx = s.tTx := rfl
@[simp] theorem State.answer_passive (r : OpResult) : (s.answer r).passive = s.passive := rfl
@[simp] theorem State.answer_input (r : OpResult) : (s.answer r).input = s.input := rfl
@[simp] theorem State.answer_out (r : OpResult) : (s.answer r).out = s.out := rfl
@[simp] theorem State.answer_res (r : OpResult) : (s.answer r).res = r := rfl

/-! toWaitSync -/

@[simp] theorem State.toWaitSync_cfg : s.toWaitSync.cfg = s.cfg := rfl
@[simp] theorem State.toWaitSync_pstate : s.toWaitSync.pstate = .waitSync := rfl
@[simp] theorem State.toWaitSync_cnt : s.toWaitSync.cnt = 0 := rfl
@[simp] theorem State.toWaitSync_crc : s.toWaitSync.crc = s.cfg.crc.init := rfl
@[simp] theorem State.toWaitSync_fType : s.toWaitSync.fType = none := rfl
@[simp] theorem State.toWaitSync_fLen : s.toWaitSync.fLen = none := rfl
@[simp] theorem State.toWaitSync_fObjid : s.toWaitSync.fObjid = none := rfl
@[simp] theorem State.toWaitSync_fInstid : s.toWaitSync.fInstid = none := rfl
@[simp] theorem State.toWaitSync_dbuf : s.toWaitSync.dbuf = [] := rfl
@[simp] theorem State.toWaitSync_snap : s.toWaitSync.snap = s.snap := rfl
@[simp] theorem State.toWaitSync_cstate : s.toWaitSync.cstate = s.cstate := rfl
@[simp] theorem State.toWaitSync_tLast : s.toWaitSync.tLast = s.tLast := rfl
@[simp] theorem State.toWaitSync_tTx : s.toWaitSync.tTx = s.tTx := rfl
@[simp] theorem State.toWaitSync_passive : s.toWaitSync.passive = s.passive := rfl
@[simp] theorem State.toWaitSync_input : s.toWaitSync.input = s.input := rfl
@[simp] theorem State.toWaitSync_out : s.toWaitSync.out = s.out := rfl
@[simp] theorem State.toWaitSync_res : s.toWaitSync.res = s.res := rfl

/-! discard -/

@[simp] theorem State.discard_cfg (e : Err) : (s.discard e).cfg = s.cfg := rfl
@[simp] theorem State.discard_pstate (e : Err) : (s.discard e).pstate = .waitSync := rfl
@[simp] theorem State.discard_cnt (e : Err) : (s.discard e).cnt = 0 := rfl
@[simp] theorem State.discard_crc (e : Err) : (s.discard e).crc = s.cfg.crc.init := rfl
@[simp] theorem State.discard_fType (e : Err) : (s.discard e).fType = none := rfl
@[simp] theorem State.discard_fLen (e : Err) : (s.discard e).fLen = none := rfl
@[simp] theorem State.discard_fObjid (e : Err) : (s.discard e).fObjid = none := rfl
@[simp] theorem State.discard_fInstid (e : Err) : (s.discard e).fInstid = none := rfl
@[simp] theorem State.discard_dbuf (e : Err) : (s.discard e).dbuf = [] := rfl
@[simp] theorem State.discard_snap (e : Err) : (s.discard e).snap = s.snap := rfl
@[simp] theorem State.discard_cstate (e : Err) : (s.discard e).cstate = s.cstate := rfl
@[simp] theorem State.discard_tLast (e : Err) : (s.discard e).tLast = s.tLast := rfl
@[simp] theorem State.discard_tTx (e : Err) : (s.discard e).tTx = s.tTx := rfl
@[simp] theorem State.discard_passive (e : Err) : (s.discard e).passive = s.passive := rfl
@[simp] theorem State.discard_input (e : Err) : (s.discard e).input = s.input := rfl
@[simp] theorem State.discard_out (e : Err) : (s.discard e).out = { err := some e, status := some .frameDropped } := rfl
@[simp] theorem State.discard_res (e : Err) : (s.discard e).res = .nothing := rfl

/-! resetAll -/

@[simp] theorem State.resetAll_cfg : s.resetAll.cfg = s.cfg := rfl
@[simp] theorem State.resetAll_pstate : s.resetAll.pstate = .waitSync := rfl
@[simp] theorem State.resetAll_cnt : s.resetAll.cnt = 0 := rfl
@[simp] theorem State.resetAll_crc : s.resetAll.crc = s.cfg.crc.init := rfl
@[simp] theorem State.resetAll_fType : s.resetAll.fType = none := rfl
@[simp] theorem State.resetAll_fLen : s.resetAll.fLen = none := rfl
@[simp] theorem State.resetAll_fObjid : s.resetAll.fObjid = none := rfl
@[simp] theorem State.resetAll_fInstid : s.resetAll.fInstid = none := rfl
@[simp] theorem State.resetAll_dbuf : s.resetAll.dbuf = [] := rfl
@[simp] theorem State.resetAll_snap : s.resetAll.snap = [] := rfl
@[simp] theorem State.resetAll_cstate : s.resetAll.cstate = .disconnected := rfl
@[simp] theorem State.resetAll_tLast : s.resetAll.tLast = 0 := rfl
@[simp] theorem State.resetAll_tTx : s.resetAll.tTx = 0 := rfl
@[simp] theorem State.resetAll_passive : s.resetAll.passive = s.cfg.passive := rfl
@[simp] theorem State.resetAll_input : s.resetAll.input = s.input := rfl
@[simp] theorem State.resetAll_out : s.resetAll.out = {} := rfl
@[simp] theorem State.resetAll_res : s.resetAll.res = .nothing := rfl

/-! accept -/

@[simp] theorem State.accept_cfg (b : Byte) : (s.accept b).cfg = s.cfg := rfl
@[simp] theorem State.accept_pstate (b : Byte) : (s.accept b).pstate = s.pstate := rfl
@[simp] theorem State.accept_cnt (b : Byte) : (s.accept b).cnt = s.cnt := rfl
@[simp] theorem State.accept_crc (b : Byte) : (s.accept b).crc = crcUpdate s.cfg.crc s.crc b := rfl
@[simp] theorem State.accept_fType (b : Byte) : (s.accept b).fType = s.fType := rfl
@[simp] theorem State.accept_fLen (b : Byte) : (s.accept b).fLen = s.fLen := rfl
@[simp] theorem State.accept_fObjid (b : Byte) : (s.accept b).fObjid = s.fObjid := rfl
@[simp] theorem State.accept_fInstid (b : Byte) : (s.accept b).fInstid = s.fInstid := rfl
@[simp] theorem State.accept_dbuf (b : Byte) : (s.accept b).dbuf = s.dbuf := rfl
@[simp] theorem State.accept_snap (b : Byte) : (s.accept b).snap = s.snap := rfl
@[simp] theorem State.accept_cstate (b : Byte) : (s.accept b).cstate = s.cstate := rfl
@[simp] theorem State.accept_tLast (b : Byte) : (s.accept b).tLast = s.tLast := rfl
@[simp] theorem State.accept_tTx (b : Byte) : (s.accept b).tTx = s.tTx := rfl
@[simp] theorem State.accept_passive (b : Byte) : (s.accept b).passive = s.passive := rfl
@[simp] theorem State.accept_input (b : Byte) : (s.accept b).input = s.input := rfl
@[simp] theorem State.accept_out (b : Byte) : (s.accept b).out = { status := some .frameInProgress } := rfl
@[simp] theorem State.accept_res (b : Byte) : (s.accept b).res = .nothing := rfl

/-! matched -/

@[simp] theorem State.matched_cfg : s.matched.cfg = s.cfg := rfl
@[simp] theorem State.matched_pstate : s.matched.pstate = .gotCrc := rfl
@[simp] theorem State.matched_cnt : s.matched.cnt = s.cnt := rfl
@[simp] theorem State.matched_crc : s.matched.crc = s.crc := rfl
@[simp] theorem State.matched_fType : s.matched.fType = s.fType := rfl
@[simp] theorem State.matched_fLen : s.matched.fLen = s.fLen := rfl
@[simp] theorem State.matched_fObjid : s.matched.fObjid = s.fObjid := rfl
@[simp] theorem State.matched_fInstid : s.matched.fInstid = s.fInstid := rfl
@[simp] theorem State.matched_dbuf : s.matched.dbuf = s.dbuf := rfl
@[simp] theorem State.matched_snap : s.matched.snap = s.snap := rfl
@[simp] theorem State.matched_cstate : s.matched.cstate = s.cstate := rfl
@[simp] theorem State.matched_tLast : s.matched.tLast = s.tLast := rfl
@[simp] theorem State.matched_tTx : s.matched.tTx = s.tTx := rfl
@[simp] theorem State.matched_passive : s.matched.passive = s.passive := rfl
@[simp] theorem State.matched_input : s.matched.input = s.input := rfl
@[simp] theorem State.matched_out : s.matched.out = { status := some .frameDispatched } := rfl
@[simp] theorem State.matched_res : s.matched.res = .nothing := rfl

/-! endHeader -/

@[simp] theorem State.endHeader_cfg (len : Half) : (s.endHeader len).cfg = s.cfg := rfl
@[simp] theorem State.endHeader_pstate (len : Half) : (s.endHeader len).pstate = if dlenOf s.cfg len = 0 then .gotData else .gotInstID := rfl
@[simp] theorem State.endHeader_cnt (len : Half) : (s.endHeader len).cnt = 0 := rfl
@[simp] theorem State.endHeader_crc (len : Half) : (s.endHeader len).crc = s.crc := rfl
@[simp] theorem State.endHeader_fType (len : Half) : (s.endHeader len).fType = s.fType := rfl
@[simp] theorem State.endHeader_fLen (len : Half) : (s.endHeader len).fLen = s.fLen := rfl
@[simp] theorem State.endHeader_fObjid (len : Half) : (s.endHeader len).fObjid = s.fObjid := rfl
@[simp] theorem State.endHeader_fInstid (len : Half) : (s.endHeader len).fInstid = s.fInstid := rfl
@[simp] theorem State.endHeader_dbuf (len : Half) : (s.endHeader len).dbuf = s.dbuf := rfl
@[simp] theorem State.endHeader_snap (len : Half) : (s.endHeader len).snap = s.snap := rfl
@[simp] theorem State.endHeader_cstate (len : Half) : (s.endHeader len).cstate = s.cstate := rfl
@[simp] theorem State.endHeader_tLast (len : Half) : (s.endHeader len).tLast = s.tLast := rfl
@[simp] theorem State.endHeader_tTx (len : Half) : (s.endHeader len).tTx = s.tTx := rfl
@[simp] theorem State.endHeader_passive (len : Half) : (s.endHeader len).passive = s.passive := rfl
@[simp] theorem State.endHeader_input (len : Half) : (s.endHeader len).input = s.input := rfl
@[simp] theorem State.endHeader_out (len : Half) : (s.endHeader len).out = s.out := rfl
@[simp] theorem State.endHeader_res (len : Half) : (s.endHeader len).res = s.res := rfl

/-! publish -/

@[simp] theorem State.publish_cfg (ps : List (Nat × Word)) : (s.publish ps).cfg = s.cfg := rfl
@[simp] theorem State.publish_pstate (ps : List (Nat × Word)) : (s.publish ps).pstate = s.pstate := rfl
@[simp] theorem State.publish_cnt (ps : List (Nat × Word)) : (s.publish ps).cnt = s.cnt := rfl
@[simp] theorem State.publish_crc (ps : List (Nat × Word)) : (s.publish ps).crc = s.crc := rfl
@[simp] theorem State.publish_fType (ps : List (Nat × Word)) : (s.publish ps).fType = s.fType := rfl
@[simp] theorem State.publish_fLen (ps : List (Nat × Word)) : (s.publish ps).fLen = s.fLen := rfl
@[simp] theorem State.publish_fObjid (ps : List (Nat × Word)) : (s.publish ps).fObjid = s.fObjid := rfl
@[simp] theorem State.publish_fInstid (ps : List (Nat × Word)) : (s.publish ps).fInstid = s.fInstid := rfl
@[simp] theorem State.publish_dbuf (ps : List (Nat × Word)) : (s.publish ps).dbuf = s.dbuf := rfl
@[simp] theorem State.publish_snap (ps : List (Nat × Word)) : (s.publish ps).snap = Memory.writeAll s.snap ps := rfl
@[simp] theorem State.publish_cstate (ps : List (Nat × Word)) : (s.publish ps).cstate = s.cstate := rfl
@[simp] theorem State.publish_tLast (ps : List (Nat × Word)) : (s.publish ps).tLast = s.tLast := rfl
@[simp] theorem State.publish_tTx (ps : List (Nat × Word)) : (s.publish ps).tTx = s.tTx := rfl
@[simp] theorem State.publish_passive (ps : List (Nat × Word)) : (s.publish ps).passive = s.passive := rfl
@[simp] theorem State.publish_input (ps : List (Nat × Word)) : (s.publish ps).input = s.input := rfl
@[simp] theorem State.publish_out (ps : List (Nat × Word)) : (s.publish ps).out = { s.out with pub := ps, dres := some .published } := rfl
@[simp] theorem State.publish_res (ps : List (Nat × Word)) : (s.publish ps).res = s.res := rfl

/-! requestStats -/

@[simp] theorem State.requestStats_cfg (now : Time) : (s.requestStats now).cfg = s.cfg := rfl
@[simp] theorem State.requestStats_pstate (now : Time) : (s.requestStats now).pstate = s.pstate := rfl
@[simp] theorem State.requestStats_cnt (now : Time) : (s.requestStats now).cnt = s.cnt := rfl
@[simp] theorem State.requestStats_crc (now : Time) : (s.requestStats now).crc = s.crc := rfl
@[simp] theorem State.requestStats_fType (now : Time) : (s.requestStats now).fType = s.fType := rfl
@[simp] theorem State.requestStats_fLen (now : Time) : (s.requestStats now).fLen = s.fLen := rfl
@[simp] theorem State.requestStats_fObjid (now : Time) : (s.requestStats now).fObjid = s.fObjid := rfl
@[simp] theorem State.requestStats_fInstid (now : Time) : (s.requestStats now).fInstid = s.fInstid := rfl
@[simp] theorem State.requestStats_dbuf (now : Time) : (s.requestStats now).dbuf = s.dbuf := rfl
@[simp] theorem State.requestStats_snap (now : Time) : (s.requestStats now).snap = s.snap := rfl
@[simp] theorem State.requestStats_cstate (now : Time) : (s.requestStats now).cstate = s.cstate := rfl
@[simp] theorem State.requestStats_tLast (now : Time) : (s.requestStats now).tLast = s.tLast := rfl
@[simp] theorem State.requestStats_tTx (now : Time) : (s.requestStats now).tTx = now := rfl
@[simp] theorem State.requestStats_passive (now : Time) : (s.requestStats now).passive = s.passive := rfl
@[simp] theorem State.requestStats_input (now : Time) : (s.requestStats now).input = s.input := rfl
@[simp] theorem State.requestStats_out (now : Time) : (s.requestStats now).out = { s.out with tx := some .stats } := rfl
@[simp] theorem State.requestStats_res (now : Time) : (s.requestStats now).res = s.res := rfl

/-! moveTo -/

@[simp] theorem State.moveTo_cfg (c : CState) : (s.moveTo c).cfg = s.cfg := rfl
@[simp] theorem State.moveTo_pstate (c : CState) : (s.moveTo c).pstate = s.pstate := rfl
@[simp] theorem State.moveTo_cnt (c : CState) : (s.moveTo c).cnt = s.cnt := rfl
@[simp] theorem State.moveTo_crc (c : CState) : (s.moveTo c).crc = s.crc := rfl
@[simp] theorem State.moveTo_fType (c : CState) : (s.moveTo c).fType = s.fType := rfl
@[simp] theorem State.moveTo_fLen (c : CState) : (s.moveTo c).fLen = s.fLen := rfl
@[simp] theorem State.moveTo_fObjid (c : CState) : (s.moveTo c).fObjid = s.fObjid := rfl
@[simp] theorem State.moveTo_fInstid (c : CState) : (s.moveTo c).fInstid = s.fInstid := rfl
@[simp] theorem State.moveTo_dbuf (c : CState) : (s.moveTo c).dbuf = s.dbuf := rfl
@[simp] theorem State.moveTo_snap (c : CState) : (s.moveTo c).snap = s.snap := rfl
@[simp] theorem State.moveTo_cstate (c : CState) : (s.moveTo c).cstate = c := rfl
@[simp] theorem State.moveTo_tLast (c : CState) : (s.moveTo c).tLast = s.tLast := rfl
@[simp] theorem State.moveTo_tTx (c : CState) : (s.moveTo c).tTx = s.tTx := rfl
@[simp] theorem State.moveTo_passive (c : CState) : (s.moveTo c).passive = s.passive := rfl
@[simp] theorem State.moveTo_input (c : CState) : (s.moveTo c).input = s.input := rfl
@[simp] theorem State.moveTo_out (c : CState) : (s.moveTo c).out = { s.out with cev := some (s.cstate, c) } := rfl
@[simp] theorem State.moveTo_res (c : CState) : (s.moveTo c).res = s.res := rfl

end Sys2Proof.Machine
end

