-- ==== Sys2Proof/Laws/Ops.lean ====
section
/-! SUPPORT. What each shared operation can do, said once: when a chain of operations answers a next state, and which states
the operations of the parser, the dispatcher and the Connection State Machine answer. -/

namespace Sys2Proof.Machine

@[simp] theorem andThen_next {σ τ : Type} (s : σ) (f : σ → Host.Outcome τ Fault Refusal) :
    andThen (.next s) f = f s := rfl

@[simp] theorem andThen_fault {σ τ : Type} (e : Fault) (f : σ → Host.Outcome τ Fault Refusal) :
    andThen (.fault e) f = .fault e := rfl

@[simp] theorem andThen_refused {σ τ : Type} (e : Refusal) (f : σ → Host.Outcome τ Fault Refusal) :
    andThen (.refused e) f = .refused e := rfl

/-- A chain answers a next state exactly where both of its links do. -/
theorem andThen_eq_next_iff {σ τ : Type} (r : Host.Outcome σ Fault Refusal) (f : σ → Host.Outcome τ Fault Refusal) (t : τ) :
    andThen r f = .next t ↔ ∃ s, r = .next s ∧ f s = .next t := by
  cases r <;> simp

@[simp] theorem need_some {α τ : Type} (e : Fault) (a : α) (f : α → Host.Outcome τ Fault Refusal) :
    need e (some a) f = f a := rfl

@[simp] theorem need_none {α τ : Type} (e : Fault) (f : α → Host.Outcome τ Fault Refusal) :
    need e none f = .fault e := rfl

/-- A needed value is there where a next state is answered. -/
theorem need_eq_next_iff {α τ : Type} (e : Fault) (v : Option α) (f : α → Host.Outcome τ Fault Refusal) (t : τ) :
    need e v f = .next t ↔ ∃ a, v = some a ∧ f a = .next t := by
  cases v <;> simp

/-- A micro-operation that answers a next state is the one pstate selects. -/
theorem selected_eq_next_iff (p : PState) (s t : State) (r : Result) :
    selected p s r = .next t ↔ s.pstate = p ∧ r = .next t := by
  unfold selected
  split <;> simp_all

@[simp] theorem selected_self (s : State) (r : Result) : selected s.pstate s r = r := if_pos rfl

/-- C.TIMEOUT writes only cstate and its outputs. -/
theorem State.checkTimeout_cases (s : State) (now : Time) :
    s.checkTimeout now = s ∨
    s.stale now = true ∧ s.checkTimeout now =
      { s with
        cstate := .disconnected
        out := { s.out with cev := some (s.cstate, .disconnected), err := some .handshakeTimeout } } := by
  unfold State.checkTimeout
  split
  · next h => exact .inr ⟨h, rfl⟩
  · exact .inl rfl

/-- C.PERIOD writes only tTx and the request. -/
theorem State.checkPeriod_cases (s : State) (now : Time) :
    s.checkPeriod now = s ∨ s.periodDue now = true ∧ s.checkPeriod now = s.requestStats now := by
  unfold State.checkPeriod
  split
  · next h => exact .inr ⟨h, rfl⟩
  · exact .inl rfl

/-- C.STATS refreshes, and makes at most one forward transition, with a request unless passive. -/
theorem State.takeStats_cases (s : State) (ps : Byte) (now : Time) :
    let seen : State := { s with tLast := now, out := { s.out with stats := some ps } }
    let new := nextCState s.cfg s.cstate ps
    new = s.cstate ∧ s.takeStats ps now = seen ∨
    new ≠ s.cstate ∧ s.passive = true ∧ s.takeStats ps now = seen.moveTo new ∨
    new ≠ s.cstate ∧ s.passive = false ∧ s.takeStats ps now = (seen.moveTo new).requestStats now := by
  by_cases hn : nextCState s.cfg s.cstate ps = s.cstate
  · exact .inl ⟨hn, by simp [State.takeStats, hn]⟩
  · cases hp : s.passive
    · exact .inr (.inr ⟨hn, rfl, by simp [State.takeStats, hn, hp]⟩)
    · exact .inr (.inl ⟨hn, rfl, by simp [State.takeStats, hn, hp]⟩)

/-- C.FRAME raises activity, and runs C.STATS on a valid stats frame. -/
theorem State.takeFrame_cases (s : State) (objid : Word) (data : List Byte) (now : Time) :
    let seen : State := { s with out := { s.out with activity := true } }
    statsOf s.cfg objid data = none ∧ s.takeFrame objid data now = seen ∨
    ∃ ps, statsOf s.cfg objid data = some ps ∧ s.takeFrame objid data now = seen.takeStats ps now := by
  cases h : statsOf s.cfg objid data with
  | none => exact .inl ⟨rfl, by simp [State.takeFrame, h]⟩
  | some ps => exact .inr ⟨ps, rfl, by simp [State.takeFrame, h]⟩

/-- What the dispatcher can answer (R150): unknown, short, or published. -/
theorem dispatchObject_cases (s t : State) (h : dispatchObject s = .next t) :
    ∃ objid len, s.fObjid = some objid ∧ s.fLen = some len ∧
      (lookup s.cfg.desc objid = none ∧ t = s.noteLookup none (dlenOf s.cfg len) ∨
       ∃ d, lookup s.cfg.desc objid = some d ∧
        (fits d (dlenOf s.cfg len) = false ∧ t = s.noteLookup (some d) (dlenOf s.cfg len) ∨
         fits d (dlenOf s.cfg len) = true ∧ ∃ pairs, extractAll s.cfg s.dbuf d.fields = some pairs ∧
          (∀ p ∈ pairs, p.1 < s.cfg.nSlots) ∧ t = s.publish pairs)) := by
  simp only [dispatchObject, need_eq_next_iff] at h
  obtain ⟨objid, ho, len, hl, h⟩ := h
  refine ⟨objid, len, ho, hl, ?_⟩
  cases hd : lookup s.cfg.desc objid with
  | none =>
    simp only [hd] at h
    exact .inl ⟨rfl, by cases h; rfl⟩
  | some d =>
    simp only [hd] at h
    refine .inr ⟨d, rfl, ?_⟩
    split at h
    · next hf =>
      simp only [need_eq_next_iff] at h
      obtain ⟨pairs, hp, h⟩ := h
      unfold execDPublish at h
      split at h
      · next hs =>
        cases h
        exact .inr ⟨hf, pairs, hp, by simpa using hs, rfl⟩
      · cases h
    · next hf =>
      cases h
      exact .inl ⟨by simpa using hf, rfl⟩

/-- What the emission of a frame answers (R136). -/
theorem emitFrame_eq_next_iff (b : Byte) (s t : State) :
    emitFrame b s = .next t ↔
      ∃ f : Frame, FrameHeld s f ∧ f.crc = b ∧ t = { s with out := { s.out with frame := some f } } := by
  simp only [emitFrame, need_eq_next_iff]
  constructor
  · rintro ⟨ty, h1, len, h2, objid, h3, instid, h4, data, h5, h⟩
    cases h
    exact ⟨_, ⟨h1, h2, h3, h4, h5⟩, rfl, rfl⟩
  · rintro ⟨f, ⟨h1, h2, h3, h4, h5⟩, rfl, rfl⟩
    exact ⟨_, h1, _, h2, _, h3, _, h4, _, h5, rfl⟩

/-- What C.FRAME answers (R173). -/
theorem execCFrame_eq_next_iff (now : Time) (s t : State) :
    execCFrame now s = .next t ↔
      ∃ objid len data, s.fObjid = some objid ∧ s.fLen = some len ∧
        Memory.readBytes s.dbuf 0 (dlenOf s.cfg len) = some data ∧ t = s.takeFrame objid data now := by
  simp only [execCFrame, need_eq_next_iff]
  constructor
  · rintro ⟨o, h1, l, h2, d, h3, h⟩
    cases h
    exact ⟨o, l, d, h1, h2, h3, rfl⟩
  · rintro ⟨o, l, d, h1, h2, h3, rfl⟩
    exact ⟨o, h1, l, h2, d, h3, rfl⟩

/-- What P.GOTCRC answers (R136, R137): the frame emitted, the object dispatched, the Connection State Machine run, and the
parser back in WaitSync. -/
theorem execPGotCrc_eq_next_iff (b : Byte) (now : Time) (s t : State) :
    execPGotCrc b now s = .next t ↔
      s.pstate = .gotCrc ∧ ∃ s1 s2 s3, emitFrame b s = .next s1 ∧ dispatchObject s1 = .next s2 ∧
        execCFrame now s2 = .next s3 ∧ t = s3.toWaitSync := by
  simp only [execPGotCrc, selected_eq_next_iff, andThen_eq_next_iff]
  constructor
  · rintro ⟨hp, s1, h1, s2, h2, s3, h3, h⟩
    cases h
    exact ⟨hp, s1, s2, s3, h1, h2, h3, rfl⟩
  · rintro ⟨hp, s1, s2, s3, h1, h2, h3, rfl⟩
    exact ⟨hp, s1, h1, s2, h2, s3, h3, rfl⟩

/-- A BYTE step that answers a next state is the micro-operation of pstate (R120). -/
theorem execByte_eq_next_iff (b : Byte) (now : Time) (s t : State) :
    execByte b now s = .next t ↔
      execPWaitSync b now s = .next t ∨ execPGotSync b now s = .next t ∨ execPGotMsgType b now s = .next t ∨
      execPGotLength b now s = .next t ∨ execPGotObjID b now s = .next t ∨ execPGotInstID b now s = .next t ∨
      execPGotData b now s = .next t := by
  unfold execByte
  cases hp : s.pstate <;>
    simp [execPWaitSync, execPGotSync, execPGotMsgType, execPGotLength, execPGotObjID, execPGotInstID, execPGotData,
      selected, hp]

/-- A READ is the BYTE steps and the TICK (R91, R139). -/
theorem execRead_eq_next_iff (bytes : List Byte) (now : Time) (s t : State) :
    execRead bytes now s = .next t ↔
      ∃ u outs v, feedBytes now bytes s = .next (u, outs) ∧ execTick now u = .next v ∧
        t = v.answer (.read (readResult outs u.pstate v.out)) := by
  simp only [execRead, andThen_eq_next_iff]
  constructor
  · rintro ⟨⟨u, outs⟩, h1, v, h2, h⟩
    cases h
    exact ⟨u, outs, v, h1, h2, rfl⟩
  · rintro ⟨u, outs, v, h1, h2, rfl⟩
    exact ⟨(u, outs), h1, v, h2, rfl⟩

/-- Feeding one byte and then the others. -/
theorem feedBytes_cons_eq_next_iff (now : Time) (b : Byte) (bs : List Byte) (s : State) (r : State × List Output) :
    feedBytes now (b :: bs) s = .next r ↔
      ∃ t u outs, execByte b now s = .next t ∧ feedBytes now bs t = .next (u, outs) ∧ r = (u, t.out :: outs) := by
  simp only [feedBytes, andThen_eq_next_iff]
  constructor
  · rintro ⟨t, h1, ⟨u, outs⟩, h2, h⟩
    cases h
    exact ⟨t, u, outs, h1, h2, rfl⟩
  · rintro ⟨t, u, outs, h1, h2, rfl⟩
    exact ⟨t, h1, (u, outs), h2, rfl⟩

/-- The snapshot read port of a slot that exists shows whether it holds a value, and the value it holds (R85). -/
theorem snapPorts_of_lt (n : Nat) (s : State) (slot : Nat) (h : slot < s.cfg.nSlots) :
    snapValidPort n s slot = (Memory.read s.snap slot).isSome ∧
    ∀ v, Memory.read s.snap slot = some v → snapValuePort n s slot = v := by
  refine ⟨by simp [snapValidPort, h], fun v hv => by simp [snapValuePort, h, hv]⟩

end Sys2Proof.Machine
end

