-- ==== Sys2Proof/Laws/Crc.lean ====
section
/-! SUPPORT. The checksum functions: the fold over a concatenation, and that values keep to CRC_W bits. -/

namespace Sys2Proof.Machine

@[simp] theorem crcFold_nil (cfg : CrcConfig) (c : Nat) : crcFold cfg c [] = c := rfl

@[simp] theorem crcFold_cons (cfg : CrcConfig) (c : Nat) (b : Byte) (bs : List Byte) :
    crcFold cfg c (b :: bs) = crcFold cfg (crcUpdate cfg c b) bs := rfl

theorem crcFold_append (cfg : CrcConfig) (c : Nat) (as bs : List Byte) :
    crcFold cfg c (as ++ bs) = crcFold cfg (crcFold cfg c as) bs := by
  induction as generalizing c with
  | nil => rfl
  | cons a as ih => exact ih _

/-- One more byte is one more update. -/
theorem crcFold_snoc (cfg : CrcConfig) (c : Nat) (as : List Byte) (b : Byte) :
    crcFold cfg c (as ++ [b]) = crcUpdate cfg (crcFold cfg c as) b := by
  simp [crcFold_append]

/-- An update gives a value of CRC_W bits under a configuration of the right shape. -/
theorem crcUpdate_lt (cfg : CrcConfig) (c : Nat) (b : Byte) (h : crcShapeOk cfg = true) :
    crcUpdate cfg c b < 2 ^ cfg.width := by
  unfold crcUpdate
  cases ha : cfg.alg with
  | crc8 =>
    have hw : cfg.width = 8 := by
      simp only [crcShapeOk, ha, bne_self_eq_false, Bool.false_or, Bool.and_eq_true, beq_iff_eq] at h
      exact h.2
    rw [hw]
    exact BitVec.isLt _
  | other id => exact Nat.mod_lt _ (Nat.two_pow_pos _)

end Sys2Proof.Machine
end

