-- ==== Sys2Proof/Laws/Memory.lean ====
section
/-! SUPPORT. The storages of optional cells: a read after a write, and that every operation keeps the canonical form. -/

namespace Sys2Proof.Machine

variable {α : Type}

@[simp] theorem Memory.read_nil (a : Nat) : Memory.read ([] : Memory α) a = none := rfl

@[simp] theorem Memory.wf_nil : Memory.wf ([] : Memory α) = true := rfl

@[simp] theorem Memory.wf_singleton (c : Nat × α) : Memory.wf [c] = true := rfl

theorem Memory.wf_cons_cons (a b : Nat) (x y : α) (rest : Memory α) :
    Memory.wf ((a, x) :: (b, y) :: rest) = true ↔ a < b ∧ Memory.wf ((b, y) :: rest) = true := by
  simp [Memory.wf]

/-- The canonical form, said of all pairs: the addresses are strictly rising. -/
theorem Memory.wf_iff_pairwise (m : Memory α) : Memory.wf m = true ↔ (m.map (·.1)).Pairwise (· < ·) := by
  induction m with
  | nil => simp
  | cons c rest ih =>
    cases rest with
    | nil => simp
    | cons d rest =>
      obtain ⟨a, x⟩ := c
      obtain ⟨b, y⟩ := d
      rw [Memory.wf_cons_cons, ih]
      simp only [List.map_cons, List.pairwise_cons, List.mem_cons, List.mem_map]
      constructor
      · rintro ⟨hab, hb, hr⟩
        refine ⟨?_, hb, hr⟩
        rintro k (rfl | ⟨p, hp, rfl⟩)
        · exact hab
        · exact Nat.lt_trans hab (hb _ ⟨p, hp, rfl⟩)
      · rintro ⟨ha, hb, hr⟩
        exact ⟨ha b (.inl rfl), hb, hr⟩

/-- A cell that was written reads as what was written. -/
@[simp] theorem Memory.read_write_same (m : Memory α) (a : Nat) (v : α) : Memory.read (Memory.write m a v) a = some v := by
  induction m with
  | nil => simp [Memory.write, Memory.read]
  | cons c rest ih =>
    obtain ⟨k, x⟩ := c
    simp only [Memory.write]
    split
    · simp [Memory.read]
    · split
      · simp [Memory.read]
      · next h1 h2 => simp [Memory.read, ih, Ne.symm h2]

/-- A write leaves every other cell alone. -/
theorem Memory.read_write_other (m : Memory α) {a b : Nat} (v : α) (h : b ≠ a) :
    Memory.read (Memory.write m a v) b = Memory.read m b := by
  induction m with
  | nil => simp [Memory.write, Memory.read, Ne.symm h]
  | cons c rest ih =>
    obtain ⟨k, x⟩ := c
    simp only [Memory.write]
    split
    · simp [Memory.read, Ne.symm h]
    · split
      · next h2 => subst h2; simp [Memory.read, Ne.symm h]
      · simp only [Memory.read, ih]

/-- The addresses listed after a write are those listed before and the one written. -/
theorem Memory.mem_keys_write (m : Memory α) (a : Nat) (v : α) (k : Nat) :
    k ∈ (Memory.write m a v).map (·.1) ↔ k = a ∨ k ∈ m.map (·.1) := by
  induction m with
  | nil => simp [Memory.write]
  | cons c rest ih =>
    obtain ⟨j, x⟩ := c
    simp only [Memory.write]
    split
    · simp
    · split
      · next h => subst h; simp
      · simp only [List.map_cons, List.mem_cons, ih]; tauto

/-- A write keeps the canonical form. -/
theorem Memory.write_wf (m : Memory α) (a : Nat) (v : α) (h : Memory.wf m = true) :
    Memory.wf (Memory.write m a v) = true := by
  rw [Memory.wf_iff_pairwise] at h ⊢
  induction m with
  | nil => simp [Memory.write]
  | cons c rest ih =>
    obtain ⟨k, x⟩ := c
    simp only [List.map_cons, List.pairwise_cons] at h
    obtain ⟨hk, hr⟩ := h
    simp only [Memory.write]
    split
    · next hlt =>
      simp only [List.map_cons, List.pairwise_cons, List.mem_cons]
      refine ⟨?_, hk, hr⟩
      rintro j (rfl | hj)
      · exact hlt
      · exact Nat.lt_trans hlt (hk j hj)
    · split
      · next h2 => subst h2; exact List.pairwise_cons.2 ⟨hk, hr⟩
      · next h1 h2 =>
        simp only [List.map_cons, List.pairwise_cons]
        refine ⟨fun j hj => ?_, ih hr⟩
        rcases (Memory.mem_keys_write rest a v j).1 hj with rfl | hj
        · omega
        · exact hk j hj

/-- A publication keeps the canonical form. -/
theorem Memory.writeAll_wf (m : Memory α) (ps : List (Nat × α)) (h : Memory.wf m = true) :
    Memory.wf (Memory.writeAll m ps) = true := by
  induction ps generalizing m with
  | nil => exact h
  | cons p ps ih => exact ih _ (Memory.write_wf m p.1 p.2 h)

/-- A publication leaves every slot it does not name alone. -/
theorem Memory.read_writeAll_other (m : Memory α) (ps : List (Nat × α)) (k : Nat) (h : k ∉ ps.map (·.1)) :
    Memory.read (Memory.writeAll m ps) k = Memory.read m k := by
  induction ps generalizing m with
  | nil => rfl
  | cons p ps ih =>
    simp only [List.map_cons, List.mem_cons, not_or] at h
    exact (ih _ h.2).trans (Memory.read_write_other m p.2 h.1)

/-- A slot that one pair of a publication names reads as that pair's value. -/
theorem Memory.read_writeAll_mem (m : Memory α) (ps : List (Nat × α)) (h : (ps.map (·.1)).Nodup) (p : Nat × α)
    (hp : p ∈ ps) : Memory.read (Memory.writeAll m ps) p.1 = some p.2 := by
  induction ps generalizing m with
  | nil => cases hp
  | cons q ps ih =>
    simp only [List.map_cons, List.nodup_cons] at h
    rcases List.mem_cons.1 hp with rfl | hp
    · exact (Memory.read_writeAll_other _ ps p.1 h.1).trans (Memory.read_write_same m p.1 p.2)
    · exact ih _ h.2 hp

/-- The addresses listed after a publication were listed before or are named by it. -/
theorem Memory.mem_keys_writeAll (m : Memory α) (ps : List (Nat × α)) (k : Nat) :
    k ∈ (Memory.writeAll m ps).map (·.1) ↔ k ∈ ps.map (·.1) ∨ k ∈ m.map (·.1) := by
  induction ps generalizing m with
  | nil => simp [Memory.writeAll]
  | cons p ps ih =>
    have h : Memory.writeAll m (p :: ps) = Memory.writeAll (Memory.write m p.1 p.2) ps := rfl
    rw [h, ih, Memory.mem_keys_write]
    simp only [List.map_cons, List.mem_cons]
    tauto

/-- Reading bytes answers as many as were asked for. -/
theorem Memory.readBytes_length (m : Memory Byte) (a n : Nat) (bs : List Byte) (h : Memory.readBytes m a n = some bs) :
    bs.length = n := by
  induction n generalizing a bs with
  | zero => simp [Memory.readBytes] at h; simp [← h]
  | succ n ih =>
    simp only [Memory.readBytes] at h
    split at h
    · next b bs' hb hbs =>
      cases h
      simp [ih (a + 1) bs' hbs]
    · cases h

/-- Byte `k` of what was read is the content of cell `a + k`. -/
theorem Memory.readBytes_getElem (m : Memory Byte) (a n : Nat) (bs : List Byte)
    (h : Memory.readBytes m a n = some bs) (k : Nat) (hk : k < n) : Memory.read m (a + k) = bs[k]? := by
  induction n generalizing a bs k with
  | zero => omega
  | succ n ih =>
    simp only [Memory.readBytes] at h
    split at h
    · next b bs' hb hbs =>
      cases h
      cases k with
      | zero => simpa using hb
      | succ k =>
        have := ih (a + 1) bs' hbs k (by omega)
        rw [show a + (k + 1) = a + 1 + k by omega, this]
        simp
    · cases h

/-- Reading bytes succeeds exactly where every cell of the range holds one. -/
theorem Memory.readBytes_isSome_iff (m : Memory Byte) (a n : Nat) :
    (Memory.readBytes m a n).isSome = true ↔ ∀ k < n, (Memory.read m (a + k)).isSome = true := by
  induction n generalizing a with
  | zero => simp [Memory.readBytes]
  | succ n ih =>
    have key : (Memory.readBytes m a (n + 1)).isSome = true ↔
        (Memory.read m a).isSome = true ∧ (Memory.readBytes m (a + 1) n).isSome = true := by
      simp only [Memory.readBytes]
      cases Memory.read m a <;> cases Memory.readBytes m (a + 1) n <;> simp
    rw [key, ih]
    constructor
    · rintro ⟨h0, h⟩ k hk
      cases k with
      | zero => simpa using h0
      | succ k => simpa [Nat.add_assoc, Nat.add_comm 1 k] using h k (by omega)
    · intro h
      refine ⟨by simpa using h 0 (by omega), fun k hk => ?_⟩
      simpa [Nat.add_assoc, Nat.add_comm 1 k] using h (k + 1) (by omega)

end Sys2Proof.Machine
end

