-- ==== Sys2Proof/Laws/PerInstr.lean ====
section
/-! SUPPORT. Statements about every instruction as syntax, one lemma per constructor. Family PacketSize: the packet an
instruction is encoded in has the number of bytes its format gives it, and only a sub-operation has none
(30_encoding.md R83, R91, opcode_table.json). -/

namespace Sys2Proof.Laws.PacketSize

open Sys2Proof Sys2Proof.Machine

/-- The number of bytes of a packet of a format; a READ of `n` bytes is `n + 1` event words. -/
def bytesOfFormat : Format → Nat → Nat
  | .event, _ => 6
  | .read, n => 6 * (n + 1)
  | .msgType, _ => 5
  | .sync, _ => 5
  | .microOp, _ => 6

/-- How many wire bytes a READ carries. -/
def readLength : Instr → Nat
  | .read bs _ => bs.length
  | _ => 0

/-- The statement of the family. -/
def Statement (i : Instr) : Prop :=
  ∀ cfg : Config,
    (isSubOp i = true ↔ encode cfg i = none) ∧
    ∀ p, encode cfg i = some p → p.bytes.length = bytesOfFormat p.fmt (readLength i)

theorem readBytes_length (now : Time) (bs : List Byte) : (readBytes now bs).length = 6 * (bs.length + 1) := by
  induction bs with
  | nil => rfl
  | cons b bs ih => simp [readBytes, eventBytes, timeBytes, ih]; omega

theorem read (bs : List Byte) (now : Time) : Statement (.read bs now) := fun cfg => by
  refine ⟨by simp [isSubOp, encode], ?_⟩
  intro p hp
  cases hp
  exact readBytes_length now bs

theorem nop : Statement .nop := fun cfg => by
  refine ⟨by simp [isSubOp, encode], ?_⟩
  intro p hp
  cases hp
  rfl

theorem byte (b : Byte) (now : Time) : Statement (.byte b now) := fun cfg => by
  refine ⟨by simp [isSubOp, encode], ?_⟩
  intro p hp
  cases hp
  rfl

theorem tick (now : Time) : Statement (.tick now) := fun cfg => by
  refine ⟨by simp [isSubOp, encode], ?_⟩
  intro p hp
  cases hp
  rfl

theorem query : Statement .query := fun cfg => by
  refine ⟨by simp [isSubOp, encode], ?_⟩
  intro p hp
  cases hp
  rfl

theorem reset : Statement .reset := fun cfg => by
  refine ⟨by simp [isSubOp, encode], ?_⟩
  intro p hp
  cases hp
  rfl

theorem illegalOp5 : Statement .illegalOp5 := fun cfg => by
  refine ⟨by simp [isSubOp, encode], ?_⟩
  intro p hp
  cases hp
  rfl

theorem illegalOp6 : Statement .illegalOp6 := fun cfg => by
  refine ⟨by simp [isSubOp, encode], ?_⟩
  intro p hp
  cases hp
  rfl

theorem illegalOp7 : Statement .illegalOp7 := fun cfg => by
  refine ⟨by simp [isSubOp, encode], ?_⟩
  intro p hp
  cases hp
  rfl

theorem msgObj (now : Time) : Statement (.msgObj now) := fun cfg => by
  refine ⟨by simp [isSubOp, encode], ?_⟩
  intro p hp
  cases hp
  rfl

theorem msgObjReq (now : Time) : Statement (.msgObjReq now) := fun cfg => by
  refine ⟨by simp [isSubOp, encode], ?_⟩
  intro p hp
  cases hp
  rfl

theorem msgObjAck (now : Time) : Statement (.msgObjAck now) := fun cfg => by
  refine ⟨by simp [isSubOp, encode], ?_⟩
  intro p hp
  cases hp
  rfl

theorem msgAck (now : Time) : Statement (.msgAck now) := fun cfg => by
  refine ⟨by simp [isSubOp, encode], ?_⟩
  intro p hp
  cases hp
  rfl

theorem msgNack (now : Time) : Statement (.msgNack now) := fun cfg => by
  refine ⟨by simp [isSubOp, encode], ?_⟩
  intro p hp
  cases hp
  rfl

theorem msgIllegal (b : Byte) (now : Time) : Statement (.msgIllegal b now) := fun cfg => by
  refine ⟨by simp [isSubOp, encode], ?_⟩
  intro p hp
  cases hp
  rfl

theorem sync (now : Time) : Statement (.sync now) := fun cfg => by
  refine ⟨by simp [isSubOp, encode], ?_⟩
  intro p hp
  cases hp
  rfl

theorem pWaitSync (b : Byte) (now : Time) : Statement (.pWaitSync b now) := fun cfg => by
  refine ⟨by simp [isSubOp, encode], ?_⟩
  intro p hp
  cases hp
  rfl

theorem pGotSync (b : Byte) (now : Time) : Statement (.pGotSync b now) := fun cfg => by
  refine ⟨by simp [isSubOp, encode], ?_⟩
  intro p hp
  cases hp
  rfl

theorem pGotMsgType (b : Byte) (now : Time) : Statement (.pGotMsgType b now) := fun cfg => by
  refine ⟨by simp [isSubOp, encode], ?_⟩
  intro p hp
  cases hp
  rfl

theorem pGotLength (b : Byte) (now : Time) : Statement (.pGotLength b now) := fun cfg => by
  refine ⟨by simp [isSubOp, encode], ?_⟩
  intro p hp
  cases hp
  rfl

theorem pGotObjID (b : Byte) (now : Time) : Statement (.pGotObjID b now) := fun cfg => by
  refine ⟨by simp [isSubOp, encode], ?_⟩
  intro p hp
  cases hp
  rfl

theorem pGotInstID (b : Byte) (now : Time) : Statement (.pGotInstID b now) := fun cfg => by
  refine ⟨by simp [isSubOp, encode], ?_⟩
  intro p hp
  cases hp
  rfl

theorem pGotData (b : Byte) (now : Time) : Statement (.pGotData b now) := fun cfg => by
  refine ⟨by simp [isSubOp, encode], ?_⟩
  intro p hp
  cases hp
  rfl

theorem pGotCrc (b : Byte) (now : Time) : Statement (.pGotCrc b now) := fun cfg => by
  refine ⟨by simp [isSubOp, encode], ?_⟩
  intro p hp
  cases hp
  rfl

theorem crcInit : Statement .crcInit := fun cfg => by
  refine ⟨by simp [isSubOp, encode], ?_⟩
  intro p hp
  cases hp

theorem crcUpd (b : Byte) : Statement (.crcUpd b) := fun cfg => by
  refine ⟨by simp [isSubOp, encode], ?_⟩
  intro p hp
  cases hp

theorem crcFin : Statement .crcFin := fun cfg => by
  refine ⟨by simp [isSubOp, encode], ?_⟩
  intro p hp
  cases hp

theorem dLookup : Statement .dLookup := fun cfg => by
  refine ⟨by simp [isSubOp, encode], ?_⟩
  intro p hp
  cases hp

theorem dExtract (f : FieldEntry) : Statement (.dExtract f) := fun cfg => by
  refine ⟨by simp [isSubOp, encode], ?_⟩
  intro p hp
  cases hp

theorem dPublish (pairs : List (Nat × Word)) : Statement (.dPublish pairs) := fun cfg => by
  refine ⟨by simp [isSubOp, encode], ?_⟩
  intro p hp
  cases hp

theorem cFrame (now : Time) : Statement (.cFrame now) := fun cfg => by
  refine ⟨by simp [isSubOp, encode], ?_⟩
  intro p hp
  cases hp

theorem cStats (ps : Byte) (now : Time) : Statement (.cStats ps now) := fun cfg => by
  refine ⟨by simp [isSubOp, encode], ?_⟩
  intro p hp
  cases hp

theorem cTimeout (now : Time) : Statement (.cTimeout now) := fun cfg => by
  refine ⟨by simp [isSubOp, encode], ?_⟩
  intro p hp
  cases hp

theorem cPeriod (now : Time) : Statement (.cPeriod now) := fun cfg => by
  refine ⟨by simp [isSubOp, encode], ?_⟩
  intro p hp
  cases hp

end Sys2Proof.Laws.PacketSize
end

