-- ==== Sys2Proof/Tests/Slice0.lean ====
section
/-! SUPPORT. Tests: expected values are those of spec/95_test_vectors.md (named in each docstring) or are worked out by hand from
the rules. Small states are built by the helpers below; each test is about one step, but for the READ vectors. -/

namespace Sys2Proof.Tests

set_option Elab.async false

open Sys2Proof Sys2Proof.Machine

/-! ## Helpers -/

/-- Configuration T of 95_test_vectors.md. -/
def cfgT : Config :=
  { Config.default with
    nSlots := 8
    statsObjId := 0x11223344
    statsStatusOff := 0
    desc :=
      [{ objid := 0xA1B2C3D4
         fields := [⟨0, 0, .w2, .uint⟩, ⟨1, 2, .w2, .sint⟩, ⟨2, 4, .w4, .float⟩, ⟨3, 8, .w1, .enum⟩] },
       { objid := 0x00C0FFEE, fields := [⟨4, 0, .w4, .uint⟩] },
       { objid := 0x0000E000, fields := [] }] }

/-- T8, TB, TP, T3, TO and TS of 95_test_vectors.md. -/
def cfgT8 : Config := { cfgT with h := 8 }
def cfgTB : Config := { cfgT with byteOrder := .be }
def cfgTP : Config := { cfgT with passive := true }
def cfgT3 : Config := { cfgT with statsStatusOff := 3 }
def cfgTO : Config :=
  { cfgT with
    desc := [{ objid := 0xBEEF, fields := [⟨0, 1, .w2, .sint⟩, ⟨1, 3, .w4, .uint⟩, ⟨2, 0, .w1, .sint⟩, ⟨3, 1, .w1, .uint⟩] }] }
def cfgTS : Config := { cfgT with desc := [{ objid := 0x11223344, fields := [⟨0, 0, .w1, .enum⟩] }] }

/-- A Data buffer that holds these bytes from cell 0 on. -/
def cells (bs : List Byte) : Memory Byte := (List.range bs.length).zip bs

/-- The states of V-PAR-1 after each of its bytes that ends a field, and one inside a field. -/
def idle : State := State.initial cfgT
def afterSync : State := { idle with pstate := .gotSync, crc := 0xB4 }
def afterType : State := { idle with pstate := .gotMsgType, crc := 0xE5, fType := some 0x20 }
def inLength : State := { afterType with cnt := 1, crc := 0x83, fLen := some 10 }
def afterLength : State := { afterType with pstate := .gotLength, crc := 0x80, fLen := some 10 }
def inObjId : State := { afterLength with cnt := 3, crc := 0x43, fObjid := some 0x030201 }
def afterObjId : State := { afterLength with pstate := .gotObjID, crc := 0xD2, fObjid := some 0x04030201 }
def inInstId : State := { afterObjId with cnt := 1, crc := 0x30, fInstid := some 0 }
def beforeCrc : State := { afterObjId with pstate := .gotData, crc := 0x90, fInstid := some 0 }

/-- V-PAR-19 (a) before its one Data byte, and before its Crc byte. -/
def beforeData : State :=
  { idle with
    pstate := .gotInstID, crc := 0xAF, fType := some 0x20, fLen := some 11, fObjid := some 0xE000, fInstid := some 7 }
def afterData : State := { beforeData with pstate := .gotData, crc := 0xF0, dbuf := cells [0x3C] }

/-- Before a Crc byte, with the Data and ObjID given; crc as R104 says. -/
def received (cfg : Config) (type : Byte) (objid : Word) (instid : Half) (data : List Byte) : State :=
  { State.initial cfg with
    pstate := .gotData
    crc := crcFold cfg.crc cfg.crc.init (frameBody cfg type objid instid data)
    fType := some (cfg.verTag ||| type)
    fLen := some (BitVec.ofNat 16 (cfg.h + data.length))
    fObjid := some objid
    fInstid := some instid
    dbuf := cells data }

/-- V-PAR-19 (b): before the last of 255 Data bytes. -/
def lastCell : State :=
  { idle with
    pstate := .gotInstID, cnt := 254, crc := 0x05, fType := some 0x20, fLen := some 265, fObjid := some 0x01020304
    fInstid := some 0, dbuf := cells ((List.range 254).map (BitVec.ofNat 8)) }

/-- V-PAR-22: T8 before the fourth ObjID byte, without Data (a) and with four Data bytes (b). -/
def inObjId8 : State :=
  { State.initial cfgT8 with
    pstate := .gotLength, cnt := 3, crc := 0x9D, fType := some 0x21, fLen := some 8, fObjid := some 0xC0FFEE }
def inObjId8Data : State := { inObjId8 with crc := 0x3B, fType := some 0x20, fLen := some 12 }

/-- V-CON-4: connected at 5000. -/
def connected : State := { idle with cstate := .connected, tLast := 5000, tTx := 5000 }

/-- The stimulus p is to be delivered next. -/
def State.given (s : State) (p : Packet) : State := { s with input := p :: s.input }

/-- A field of the state an operation answers. -/
def got {α : Type} (r : Result) (f : State → α) : Option α :=
  match r with
  | .next s => some (f s)
  | _ => none

/-- The state, fault or refusal an operation answers. -/
def nextOf (r : Result) : Option State :=
  match r with
  | .next s => some s
  | _ => none
def faultOf (r : Result) : Option Fault :=
  match r with
  | .fault e => some e
  | _ => none
def refusedOf (r : Result) : Option Refusal :=
  match r with
  | .refused e => some e
  | _ => none

/-- The status, counts and parser state of a READ. -/
def readOf (r : Result) : Option (Status × Nat × Nat × PState) :=
  match r with
  | .next s =>
    match s.res with
    | .read v => some (v.status, v.dispatches, v.drops, s.pstate)
    | _ => none
  | _ => none

/-- The states above are ones a run reaches: they meet both invariants, so their crc values are the spec's. -/
theorem test_states_meet_the_invariants :
    ∀ s ∈ [idle, afterSync, afterType, inLength, afterLength, inObjId, afterObjId, inInstId, beforeCrc, beforeData, afterData,
        inObjId8, inObjId8Data, connected], s.Inv ∧ s.ChecksumOk := by
  decide +kernel

/-! ## Well-formedness: one ill-formed term for each check -/

/-- R12, in its order: every condition refuses a configuration that breaks it, under its name. -/
theorem test_ill_formed_configurations :
    configProblem cfgT = none ∧ configProblem cfgT8 = none ∧ configProblem cfgTO = none ∧
    configProblem { cfgT with h := 9 } = some .headerLength ∧
    configProblem { cfgT with verTag := 0x21 } = some .versionTag ∧
    configProblem { cfgT with tAck := 4 } = some .typesEqual ∧
    configProblem { cfgT with tNack := 8 } = some .typeTooLarge ∧
    configProblem { cfgT with crc := { width := 0, init := 0, alg := .other 0 } } = some .crcWidth ∧
    configProblem { cfgT with crc := { width := 8, init := 256, alg := .crc8 } } = some .crcShape ∧
    configProblem { cfgT with crc := { width := 16, init := 0, alg := .crc8 } } = some .crcShape := by
  decide +kernel

/-- R12, the descriptor table and the rest. -/
theorem test_ill_formed_tables :
    configProblem { cfgT with desc := [⟨1, [⟨0, 254, .w1, .uint⟩]⟩] } = none ∧
    configProblem { cfgT with desc := [⟨1, [⟨0, 254, .w2, .uint⟩]⟩] } = some .fieldRange ∧
    configProblem { cfgT with desc := [⟨1, [⟨7, 0, .w2, .uint⟩]⟩] } = none ∧
    configProblem { cfgT with desc := [⟨1, [⟨8, 0, .w2, .uint⟩]⟩] } = some .fieldSlot ∧
    configProblem { cfgT with desc := [⟨1, [⟨0, 0, .w2, .float⟩]⟩] } = some .floatWidth ∧
    configProblem { cfgT with desc := [⟨1, []⟩, ⟨1, []⟩] } = some .objidsEqual ∧
    configProblem { cfgT with desc := [⟨1, [⟨0, 0, .w1, .uint⟩, ⟨0, 1, .w1, .uint⟩]⟩] } = some .slotsEqual ∧
    configProblem { cfgT with psConn := 2 } = some .peerStatusEqual ∧
    configProblem { cfgT with tConnect := 2 ^ 31 } = some .connectTimeout ∧
    configProblem { cfgT with tPeriod := 2 ^ 31 } = some .period ∧
    configProblem { cfgT with tPeriod := 2 ^ 31 - 1 } = none := by
  decide +kernel

/-- An ill-formed term for each check of Instr.wf. -/
theorem test_ill_formed_instructions :
    (Instr.msgObj 0).wf { cfgT with tObj := 8 } = false ∧
    (Instr.msgObjReq 0).wf { cfgT with tObjReq := 8 } = false ∧
    (Instr.msgObjAck 0).wf { cfgT with tObjAck := 8 } = false ∧
    (Instr.msgAck 0).wf { cfgT with tAck := 8 } = false ∧
    (Instr.msgNack 0).wf { cfgT with tNack := 3 } = false ∧
    (Instr.msgIllegal 0x20 0).wf cfgT = false ∧
    (Instr.dExtract ⟨0, 254, .w2, .uint⟩).wf cfgT = false ∧
    (Instr.dExtract ⟨8, 0, .w2, .uint⟩).wf cfgT = false ∧
    (Instr.dExtract ⟨0, 0, .w2, .float⟩).wf cfgT = false ∧
    (Instr.dPublish [(8, 0)]).wf cfgT = false ∧
    (Instr.dPublish [(1, 0), (1, 2)]).wf cfgT = false := by
  decide +kernel

/-- A well-formed term for each of them. -/
theorem test_well_formed_instructions :
    (∀ i ∈ [Instr.msgObj 0, .msgObjReq 0, .msgObjAck 0, .msgAck 0, .msgNack 0, .msgIllegal 0x25 0,
        .dExtract ⟨7, 254, .w1, .sint⟩, .dExtract ⟨0, 0, .w4, .float⟩, .dPublish [(7, 0), (0, 2)]], i.wf cfgT = true) := by
  decide +kernel

/-! ## Decoding, from words written out by hand from R83, R80, R71, R84, R120 and R91 -/

/-- Event words {op, b, now}: op in bits 42:40, b in 39:32, now in 31:0 (V-ENC-13, and the three words that are no events). -/
theorem test_decode_event_words :
    decodeTableWord 43 0x00000000000 = some .nop ∧
    decodeTableWord 43 0x13C000003E8 = some (.byte 0x3C 1000) ∧
    decodeTableWord 43 0x20000003A99 = some (.tick 15001) ∧
    decodeTableWord 43 0x30000000000 = some .query ∧
    decodeTableWord 43 0x40000000000 = some .reset ∧
    decodeTableWord 43 0x50000000000 = some .illegalOp5 ∧
    decodeTableWord 43 0x60000000000 = some .illegalOp6 ∧
    decodeTableWord 43 0x70000000000 = some .illegalOp7 := by
  decide +kernel

/-- b and now are ignored where R83 says so; a bit above 42 does not exist. -/
theorem test_decode_ignored_bits :
    decodeTableWord 43 0x0FFFFFFFFFF = some .nop ∧
    decodeTableWord 43 0x2FF00000001 = some (.tick 1) ∧
    decodeTableWord 43 0x4FFFFFFFFFF = some .reset ∧
    decode cfgT { fmt := .event, bytes := [0, 0, 0, 0, 0, 0x08] } = .rejected .noSuchBit ∧
    decode cfgT { fmt := .event, bytes := [0, 0, 0, 0, 0] } = .rejected .wrongLength := by
  decide +kernel

/-- The MsgType bytes of R80, the marker of R71, the codes of R84. -/
theorem test_decode_byte_formats :
    decodeTableWord 8 0x20 = some (.msgObj 0) ∧ decodeTableWord 8 0x21 = some (.msgObjReq 0) ∧
    decodeTableWord 8 0x22 = some (.msgObjAck 0) ∧ decodeTableWord 8 0x23 = some (.msgAck 0) ∧
    decodeTableWord 8 0x24 = some (.msgNack 0) ∧ decodeTableWord 8 0x25 = some (.msgIllegal 0x25 0) ∧
    decodeTableWord 8 0xA0 = some (.msgIllegal 0xA0 0) ∧ decodeTableWord 8 0x3C = some (.sync 0) ∧
    decodeTableWord 3 0 = some (.pWaitSync 0 0) ∧ decodeTableWord 3 1 = some (.pGotSync 0 0) ∧
    decodeTableWord 3 2 = some (.pGotMsgType 0 0) ∧ decodeTableWord 3 3 = some (.pGotLength 0 0) ∧
    decodeTableWord 3 4 = some (.pGotObjID 0 0) ∧ decodeTableWord 3 5 = some (.pGotInstID 0 0) ∧
    decodeTableWord 3 6 = some (.pGotData 0 0) ∧ decodeTableWord 3 7 = some (.pGotCrc 0 0) := by
  decide +kernel

/-- READ is BYTE* TICK (R91): `3C 99 @1000` as three event words; a TICK alone is a READ of no bytes; words of two times are no
READ. -/
theorem test_decode_read :
    decode cfgT
      { fmt := .read
        bytes := [0xE8, 3, 0, 0, 0x3C, 1, 0xE8, 3, 0, 0, 0x99, 1, 0xE8, 3, 0, 0, 0, 2] } = .ok (.read [0x3C, 0x99] 1000) ∧
    decode cfgT { fmt := .read, bytes := [0x99, 0x3A, 0, 0, 0, 2] } = .ok (.read [] 15001) ∧
    decode cfgT { fmt := .read, bytes := [1, 0, 0, 0, 0x3C, 1, 2, 0, 0, 0, 0, 2] } = .rejected .notRead := by
  decide +kernel

/-- Under other parameters the same byte is another row (R80). -/
theorem test_decode_follows_the_configuration :
    decode { cfgT with verMask := 0xF0, tNack := 5 } { fmt := .msgType, bytes := [0x25, 0, 0, 0, 0] } = .ok (.msgNack 0) ∧
    decode { cfgT with syncVal := 0x55 } { fmt := .sync, bytes := [0x3C, 0, 0, 0, 0] } = .rejected .notSync := by
  decide +kernel

/-- V-ENC-14, and R87's components read back. -/
theorem test_packed_field_entries :
    packField ⟨1, 2, .w2, .sint⟩ = 0x0001025 ∧ packField ⟨2, 4, .w4, .float⟩ = 0x000204B ∧
    unpackField 0x000204B = some ⟨2, 4, .w4, .float⟩ ∧ unpackField 0x000000C = none := by
  decide +kernel

/-- The codes of R84. -/
theorem test_codes :
    [PState.waitSync, .gotSync, .gotMsgType, .gotLength, .gotObjID, .gotInstID, .gotData, .gotCrc].map pstateCode =
      [0, 1, 2, 3, 4, 5, 6, 7] ∧
    [CState.disconnected, .handshakeRequested, .handshakeAcknowledged, .connected].map cstateCode = [0, 1, 2, 3] ∧
    [Status.idle, .frameInProgress, .frameDispatched, .frameDropped].map statusCode = [0, 1, 2, 3] ∧
    [none, some Err.syncMismatch, some .unsupportedMsgType, some .lengthOutOfRange, some .crcMismatch, some .unknownObjID,
      some .handshakeTimeout].map errCode = [0, 1, 2, 3, 4, 5, 6] ∧
    [none, some DispatchResult.unknown, some .short, some .published].map dresCode = [0, 1, 2, 3] ∧
    [TxKind.stats, .ack, .nack, .objectRequest].map txCode = [0, 1, 2, 3] := by
  decide +kernel

/-! ## Frames and checksums -/

/-- V-ENC-1, V-ENC-4, V-ENC-6, V-ENC-8. -/
theorem test_frames :
    frameBytes cfgT 0 0x04030201 0 [] = [0x3C, 0x20, 0x0A, 0, 1, 2, 3, 4, 0, 0, 0x90] ∧
    frameBytes cfgT8 1 0x00C0FFEE 0 [] = [0x3C, 0x21, 8, 0, 0xEE, 0xFF, 0xC0, 0, 0xDA] ∧
    frameBytes cfgTB 0 0xA1B2C3D4 0x0102 [0x27, 0x10, 0xFF, 0xFE, 0x3F, 0x80, 0, 0, 2] =
      [0x3C, 0x20, 0, 0x13, 0xA1, 0xB2, 0xC3, 0xD4, 1, 2, 0x27, 0x10, 0xFF, 0xFE, 0x3F, 0x80, 0, 0, 2, 0xC7] ∧
    badFrameBytes cfgT 0 0x00C0FFEE 0 [1, 0, 0, 0] = [0x3C, 0x20, 0x0E, 0, 0xEE, 0xFF, 0xC0, 0, 0, 0, 1, 0, 0, 0, 0xAD] := by
  decide +kernel

/-- V-ENC-9, V-ENC-10. -/
theorem test_stats_frames :
    statsBytes cfgT 1 = [0x3C, 0x20, 0x0B, 0, 0x44, 0x33, 0x22, 0x11, 0, 0, 1, 0xCB] ∧
    statsBytes cfgT3 1 = [0x3C, 0x20, 0x0E, 0, 0x44, 0x33, 0x22, 0x11, 0, 0, 0, 0, 0, 1, 0x5E] := by
  decide +kernel

/-- V-CRC-2 to V-CRC-12. -/
theorem test_crc_update :
    [((0x00 : Byte), (0x00 : Byte)), (0, 1), (0, 0x80), (0, 0xFF), (0xFF, 0), (0xFF, 0xFF), (1, 0), (0x80, 0), (0x55, 0xAA),
      (0xAA, 0xAA), (0xB4, 0x20)].map (fun p => crc8Update p.1 p.2) =
      [0, 7, 0x89, 0xF3, 0xF3, 0, 7, 0x89, 0xF3, 0, 0xE5] := by
  decide +kernel

/-- V-CRC-13, V-CRC-16 to V-CRC-21. -/
theorem test_crc_fold :
    [[], [1, 2, 3], [0, 0, 0, 0], [0xFF, 0xFF, 0xFF, 0xFF], [0x31, 0x32, 0x33, 0x34, 0x35, 0x36, 0x37, 0x38, 0x39],
      [0x3C, 0x20, 0x0A, 0, 1, 2, 3, 4, 0, 0], [0x3C, 0x20, 0x0A, 0, 1, 2, 3, 4, 0, 0, 0x90]].map
      (crcFold cfgT.crc 0) = [0, 0x48, 0, 0xDE, 0xF4, 0x90, 0] := by
  decide +kernel

/-! ## Events -/

theorem test_nop : nextOf (exec .nop connected) = some connected := by decide +kernel

/-- V-PAR-23, and V-EXC-9 for QUERY. -/
theorem test_query :
    got (exec .query idle) (·.out.query) = some (some (.waitSync, .disconnected)) ∧
    nextOf (exec .query inLength) = some { inLength with out := { query := some (.gotMsgType, .disconnected) } } := by
  decide +kernel

/-- V-EXC-7 and V-EXC-8. -/
theorem test_reset :
    nextOf (exec .reset { beforeData with cstate := .connected, snap := [(4, 2)], tLast := 9, tTx := 9, dbuf := [(0, 1)] }) =
      some idle ∧
    nextOf (exec .reset { State.initial cfgTP with cstate := .connected, passive := false }) =
      some (State.initial cfgTP) := by
  decide +kernel

/-- R83: 5, 6, 7 are refused. -/
theorem test_illegal_ops :
    refusedOf (exec .illegalOp5 idle) = some (.notAnEvent 5) ∧ refusedOf (exec .illegalOp6 idle) = some (.notAnEvent 6) ∧
    refusedOf (exec .illegalOp7 idle) = some (.notAnEvent 7) := by
  decide +kernel

/-- V-CON-4: TICK at 5999, 6000, 15000, 15001. -/
theorem test_tick :
    nextOf (exec (.tick 5999) connected) = some connected ∧
    nextOf (exec (.tick 6000) connected) = some { connected with tTx := 6000, out := { tx := some .stats } } ∧
    nextOf (exec (.tick 15000) connected) = some { connected with tTx := 15000, out := { tx := some .stats } } ∧
    nextOf (exec (.tick 15001) connected) =
      some { connected with
        cstate := .disconnected
        out := { cev := some (.connected, .disconnected), err := some .handshakeTimeout } } := by
  decide +kernel

/-- V-CON-9 and V-CON-10: the wrap, and time running backwards. -/
theorem test_tick_wraps :
    got (exec (.tick 6416) { connected with tLast := 4294963712, tTx := 4294964712 }) (fun t => (t.cstate, t.tTx)) =
      some (.connected, 6416) ∧
    got (exec (.tick 6417) { connected with tLast := 4294963712, tTx := 6416 }) (·.cstate) = some .disconnected ∧
    got (exec (.tick 4999) connected) (·.out.err) = some (some .handshakeTimeout) := by
  decide +kernel

/-- G and B of V-PAR-21. -/
def goodFrame : List Byte := [0x3C, 0x20, 0x0E, 0, 0xEE, 0xFF, 0xC0, 0, 0, 0, 5, 0, 0, 0, 0x0A]
def badFrame : List Byte := [0x3C, 0x20, 0x0E, 0, 0xEE, 0xFF, 0xC0, 0, 0, 0, 6, 0, 0, 0, 0x31]

/-- V-PAR-21, five of its rows. -/
theorem test_read :
    [[], goodFrame.take 5, goodFrame ++ badFrame, badFrame ++ goodFrame.take 3, [0, 0x3C]].map
      (fun bs => readOf (exec (.read bs 0) idle)) =
      [some (.idle, 0, 0, .waitSync), some (.frameInProgress, 0, 0, .gotLength), some (.frameDispatched, 1, 1, .waitSync),
        some (.frameDropped, 0, 1, .gotMsgType), some (.frameInProgress, 0, 0, .gotSync)] := by
  decide +kernel

/-- V-CON-11: a READ's TICK requests after a period. -/
theorem test_read_ticks :
    got (exec (.read [] 1100) { idle with cstate := .handshakeRequested, tLast := 100, tTx := 100 })
      (fun t => (t.out.tx, t.tTx)) = some (some .stats, 1100) := by
  decide +kernel

/-! ## BYTE and its micro-operations -/

/-- V-PAR-1, first row, and V-EXC-1. -/
theorem test_pWaitSync :
    nextOf (exec (.pWaitSync 0x3C 100) idle) = some { afterSync with out := { status := some .frameInProgress } } ∧
    nextOf (exec (.pWaitSync 0 100) idle) = some { idle with out := { err := some .syncMismatch, status := some .idle } } := by
  decide +kernel

/-- V-PAR-1, second row, and V-EXC-2. -/
theorem test_pGotSync :
    nextOf (exec (.pGotSync 0x20 100) afterSync) = some { afterType with out := { status := some .frameInProgress } } ∧
    nextOf (exec (.pGotSync 0x99 100) afterSync) =
      some { idle with out := { err := some .unsupportedMsgType, status := some .frameDropped } } := by
  decide +kernel

/-- V-PAR-1, third and fourth row. -/
theorem test_pGotMsgType :
    nextOf (exec (.pGotMsgType 0x0A 100) afterType) = some { inLength with out := { status := some .frameInProgress } } ∧
    nextOf (exec (.pGotMsgType 0 100) inLength) = some { afterLength with out := { status := some .frameInProgress } } := by
  decide +kernel

/-- V-PAR-5, V-PAR-6, V-EXC-3, and V-PAR-8b's 265 and 266 under BE. -/
theorem test_pGotMsgType_range :
    got (exec (.pGotMsgType 1 0) { inLength with crc := 0x8A, fLen := some 9 }) (fun t => (t.pstate, t.fLen)) =
      some (.gotLength, some 265) ∧
    got (exec (.pGotMsgType 1 0) inLength) (fun t => (t.pstate, t.out.err)) =
      some (.waitSync, some .lengthOutOfRange) ∧
    got (exec (.pGotMsgType 0 0) { inLength with fLen := some 9 }) (fun t => (t.pstate, t.fType, t.fLen)) =
      some (.waitSync, none, none) ∧
    got (exec (.pGotMsgType 9 0) { inLength with cfg := cfgTB, fLen := some 1 }) (·.fLen) = some (some 265) ∧
    got (exec (.pGotMsgType 10 0) { inLength with cfg := cfgTB, fLen := some 1 }) (·.pstate) = some .waitSync := by
  decide +kernel

/-- V-PAR-1, rows five and eight. -/
theorem test_pGotLength :
    nextOf (exec (.pGotLength 1 100) afterLength) =
      some { afterLength with cnt := 1, crc := 0x8E, fObjid := some 1, out := { status := some .frameInProgress } } ∧
    nextOf (exec (.pGotLength 4 100) inObjId) = some { afterObjId with out := { status := some .frameInProgress } } := by
  decide +kernel

/-- V-PAR-22: the header-8 path, without and with Data. -/
theorem test_pGotLength_header8 :
    got (exec (.pGotLength 0 0) inObjId8) (fun t => (t.pstate, t.crc, t.fInstid)) = some (.gotData, 0xDA, some 0) ∧
    got (exec (.pGotLength 0 0) inObjId8Data) (fun t => (t.pstate, t.cnt, t.crc)) = some (.gotInstID, 0, 0xA1) := by
  decide +kernel

/-- V-PAR-1, the last two rows of the header. -/
theorem test_pGotObjID :
    nextOf (exec (.pGotObjID 0 100) afterObjId) = some { inInstId with out := { status := some .frameInProgress } } ∧
    nextOf (exec (.pGotObjID 0 100) inInstId) = some { beforeCrc with out := { status := some .frameInProgress } } := by
  decide +kernel

/-- V-PAR-19: the only Data byte, and the last of 255. -/
theorem test_pGotInstID :
    nextOf (exec (.pGotInstID 0x3C 100) beforeData) = some { afterData with out := { status := some .frameInProgress } } ∧
    got (exec (.pGotInstID 0xFE 0) lastCell) (fun t => (t.pstate, t.cnt, t.crc, Memory.read t.dbuf 254)) =
      some (.gotData, 0, 0xEF, some 0xFE) := by
  decide +kernel

/-- V-PAR-1, last row (and V-EXC-5). -/
theorem test_pGotData :
    nextOf (exec (.pGotData 0x90 100) beforeCrc) =
      some { idle with
        out :=
          { status := some .frameDispatched
            err := some .unknownObjID
            frame := some ⟨0x20, 10, 0x04030201, 0, [], 0x90⟩
            dres := some .unknown
            activity := true } } := by
  decide +kernel

/-- V-EXC-4. -/
theorem test_pGotData_mismatch :
    nextOf (exec (.pGotData 0x6F 100) { beforeCrc with snap := [(4, 2)], cstate := .connected, tLast := 7 }) =
      some { idle with
        snap := [(4, 2)], cstate := .connected, tLast := 7
        out := { err := some .crcMismatch, status := some .frameDropped } } := by
  decide +kernel

/-- V-PAR-19 (a): P.GOTCRC inside the step of the Crc byte F0. -/
theorem test_pGotCrc :
    got (exec (.pGotCrc 0xF0 100) { afterData with pstate := .gotCrc })
      (fun t => (t.pstate, t.out)) =
      some (.waitSync,
        { frame := some ⟨0x20, 11, 0xE000, 7, [0x3C], 0xF0⟩, dres := some .published, activity := true }) := by
  decide +kernel

/-- V-PAR-14: the second 3C is no MsgType; V-PAR-18: inside a frame it is content. -/
theorem test_sync :
    nextOf (exec (.sync 100) idle) = some { afterSync with out := { status := some .frameInProgress } } ∧
    got (exec (.sync 0) afterSync) (fun t => (t.pstate, t.out.err)) = some (.waitSync, some .unsupportedMsgType) ∧
    got (exec (.sync 0) afterLength) (·.fObjid) = some (some 0x3C) := by
  decide +kernel

/-- V-PAR-10 and V-PAR-11. -/
theorem test_msg_types :
    [Instr.msgObj 0, .msgObjReq 0, .msgObjAck 0, .msgAck 0, .msgNack 0].map
      (fun i => got (exec i afterSync) (fun t => (t.pstate, t.fType, t.crc))) =
      [some (.gotMsgType, some 0x20, 0xE5), some (.gotMsgType, some 0x21, 0xE2), some (.gotMsgType, some 0x22, 0xEB),
        some (.gotMsgType, some 0x23, 0xEC), some (.gotMsgType, some 0x24, 0xF9)] ∧
    got (exec (.msgIllegal 0x25 0) afterSync) (fun t => (t.pstate, t.out.err)) =
      some (.waitSync, some .unsupportedMsgType) := by
  decide +kernel

/-- V-EXT-12: BYTE of the Crc byte of a stats frame whose object has a descriptor. -/
theorem test_byte_dispatch :
    nextOf (exec (.byte 0xCB 777) (received cfgTS 0 0x11223344 0 [1])) =
      some { State.initial cfgTS with
        snap := [(0, 1)], cstate := .handshakeRequested, tLast := 777, tTx := 777
        out :=
          { status := some .frameDispatched
            frame := some ⟨0x20, 11, 0x11223344, 0, [1], 0xCB⟩
            dres := some .published
            pub := [(0, 1)]
            activity := true
            stats := some 1
            cev := some (.disconnected, .handshakeRequested)
            tx := some .stats } } := by
  decide +kernel

/-- V-EXT-2, V-EXT-6, V-EXT-7, V-EXT-3. -/
theorem test_byte_extraction :
    got (exec (.byte 0x46 0) (received cfgT 0 0xA1B2C3D4 0 [0xFF, 0xFF, 0, 0x80, 0, 0, 0xC0, 0x7F, 0xFF])) (·.snap) =
      some [(0, 0x0000FFFF), (1, 0xFFFF8000), (2, 0x7FC00000), (3, 0x000000FF)] ∧
    got (exec (.byte 0x18 0) (received cfgTO 0 0xBEEF 0 [0x80, 0, 0x80, 0x44, 0x33, 0x22, 0x11])) (·.snap) =
      some [(0, 0xFFFF8000), (1, 0x11223344), (2, 0xFFFFFF80), (3, 0)] ∧
    got (exec (.byte 0x77 0) (received { cfgTO with byteOrder := .be } 0 0xBEEF 0 [0x80, 0, 0x80, 0x44, 0x33, 0x22, 0x11]))
      (·.snap) = some [(0, 0x00000080), (1, 0x44332211), (2, 0xFFFFFF80), (3, 0)] ∧
    got (exec (.byte 0x49 0) (received cfgT 0 0xA1B2C3D4 0 [0x10, 0x27, 0xFE, 0xFF, 0, 0, 0x80, 0x3F]))
      (fun t => (t.snap, t.out.dres, t.out.err)) = some ([], some .short, none) := by
  decide +kernel

/-! ## Sub-operations -/

/-- V-CRC-1, V-CRC-12, V-CRC-22. -/
theorem test_crc_operations :
    got (exec .crcInit beforeCrc) (·.crc) = some 0 ∧ got (exec (.crcUpd 0x20) afterSync) (·.crc) = some 0xE5 ∧
    nextOf (exec .crcFin beforeCrc) = some { beforeCrc with res := .crcByte 0x90 } := by
  decide +kernel

/-- R151 to R153: a hit, a miss by one bit (V-EXT-10), a payload too short (V-EXT-5). -/
theorem test_dLookup :
    got (exec .dLookup (received cfgT 0 0xE000 0 [])) (·.res) = some (.lookup (some ⟨0xE000, []⟩)) ∧
    got (exec .dLookup (received cfgT 0 0x00C0FFEF 0 [9, 0, 0, 0])) (fun t => (t.res, t.out.dres, t.out.err)) =
      some (.lookup none, some .unknown, some .unknownObjID) ∧
    got (exec .dLookup (received cfgT 0 0xA1B2C3D4 0 [])) (fun t => (t.out.dres, t.out.err)) = some (some .short, none) := by
  decide +kernel

/-- Five Data bytes. -/
def fiveBytes : State := received cfgT 0 0 0 [0x10, 0x27, 0xFE, 0xFF, 0x80]

/-- R154, R155: the example FE FF at offset 2, signed and unsigned; R155: 80 in one byte. -/
theorem test_dExtract :
    got (exec (.dExtract ⟨0, 2, .w2, .uint⟩) fiveBytes) (·.res) = some (.value 0x0000FFFE) ∧
    got (exec (.dExtract ⟨0, 2, .w2, .sint⟩) fiveBytes) (·.res) = some (.value 0xFFFFFFFE) ∧
    got (exec (.dExtract ⟨0, 4, .w1, .sint⟩) fiveBytes) (·.res) = some (.value 0xFFFFFF80) ∧
    faultOf (exec (.dExtract ⟨0, 4, .w2, .uint⟩) fiveBytes) = some .emptyCell := by
  decide +kernel

/-- R158: every named slot, no other; slot 8 of 8 does not exist. -/
theorem test_dPublish :
    got (exec (.dPublish [(7, 1), (0, 2)]) { idle with snap := [(0, 9), (4, 5)] }) (·.snap) =
      some [(0, 2), (4, 5), (7, 1)] ∧
    faultOf (exec (.dPublish [(0, 1), (8, 1)]) idle) = some .noSuchSlot := by
  decide +kernel

/-- V-CON-7: a stats frame without its status byte is activity only; V-CON-6: so is another object's frame. -/
theorem test_cFrame :
    nextOf (exec (.cFrame 50) (received cfgT 1 0x11223344 0 [])) =
      some { received cfgT 1 0x11223344 0 [] with out := { activity := true } } ∧
    got (exec (.cFrame 60) (received cfgT3 0 0x11223344 0 [1, 1, 1])) (·.out.stats) = some none ∧
    got (exec (.cFrame 60) (received cfgT3 0 0x11223344 0 [0, 0, 0, 1])) (fun t => (t.cstate, t.tLast, t.out.activity)) =
      some (.handshakeRequested, 60, true) := by
  decide +kernel

/-- V-CON-3: which of the twenty pairs move the connection. -/
theorem test_cStats_table :
    ([CState.disconnected, .handshakeRequested, .handshakeAcknowledged, .connected].map fun c =>
      [(0 : Byte), 1, 2, 3, 9].map fun ps =>
        got (exec (.cStats ps 500) { connected with cstate := c, tLast := 100, tTx := 100 })
          (fun t => (t.cstate, t.tLast, t.tTx))) =
      [[some (.disconnected, 500, 100), some (.handshakeRequested, 500, 500), some (.disconnected, 500, 100),
          some (.disconnected, 500, 100), some (.disconnected, 500, 100)],
       [some (.handshakeRequested, 500, 100), some (.handshakeRequested, 500, 100), some (.handshakeAcknowledged, 500, 500),
          some (.handshakeRequested, 500, 100), some (.handshakeRequested, 500, 100)],
       [some (.handshakeAcknowledged, 500, 100), some (.handshakeAcknowledged, 500, 100),
          some (.handshakeAcknowledged, 500, 100), some (.connected, 500, 500), some (.handshakeAcknowledged, 500, 100)],
       [some (.connected, 500, 100), some (.connected, 500, 100), some (.connected, 500, 100), some (.connected, 500, 100),
          some (.connected, 500, 100)]] := by
  decide +kernel

/-- V-CON-2: passive, the transition without the request. -/
theorem test_cStats_passive :
    got (exec (.cStats 1 1000) (State.initial cfgTP)) (fun t => (t.cstate, t.tLast, t.tTx, t.out.tx)) =
      some (.handshakeRequested, 1000, 0, none) := by
  decide +kernel

/-- V-EXC-6, and the boundary of R181. -/
theorem test_cTimeout :
    nextOf (exec (.cTimeout 15000) connected) = some connected ∧
    got (exec (.cTimeout 15001) connected) (fun t => (t.cstate, t.out.cev, t.tLast)) =
      some (.disconnected, some (.connected, .disconnected), 5000) := by
  decide +kernel

/-- R183's example: 5999 nothing, 6000 a request; passive none. -/
theorem test_cPeriod :
    nextOf (exec (.cPeriod 5999) connected) = some connected ∧
    nextOf (exec (.cPeriod 6000) connected) = some { connected with tTx := 6000, out := { tx := some .stats } } ∧
    nextOf (exec (.cPeriod 6000) { connected with passive := true }) = some { connected with passive := true } := by
  decide +kernel

/-! ## step, ports -/

/-- One step decodes and runs the oldest stimulus, then the next one is oldest; without one it is idle (R220). -/
theorem test_step :
    nextOf (step (State.given idle (eventPacket 1 0x3C 100))) = some { afterSync with out := { status := some .frameInProgress } } ∧
    nextOf (step connected) = some connected ∧
    refusedOf (step { idle with cfg := { cfgT with h := 9 } }) = some (.illFormedConfig .headerLength) ∧
    refusedOf (step (State.given idle { fmt := .event, bytes := [] })) = some (.undecodable .wrongLength) := by
  decide +kernel

/-- withFetchWord places the instruction so that the very next step runs it. -/
theorem test_withFetchWord :
    got (step (State.withFetchWord idle 43 0x13C00000000)) (·.pstate) = some .gotSync ∧
    got (step (State.withFetchWord idle 8 0x21)) (fun t => (t.pstate, t.fType)) = some (.gotMsgType, some 0x21) ∧
    got (step (State.withFetchWord idle 8 0x25)) (·.out.err) = some (some .unsupportedMsgType) ∧
    ([0, 1, 2, 3, 4, 5, 6, 7].map fun w => got (step (State.withFetchWord idle 3 w)) (·.out.status.isSome)) =
      [some true, some true, some true, some true, some true, some true, some true, some false] := by
  decide +kernel

/-- A field of what a cycle leaves. -/
def ports {α : Type} (r : Host.Outcome (State × PortOut) Fault Refusal) (f : State → PortOut → α) : Option α :=
  match r with
  | .next (s, o) => some (f s o)
  | _ => none

/-- V-CON-8: BYTE C5 and TICK in one cycle, at 10021. -/
theorem test_cycle :
    ports (cycle 0 ⟨false, true, 0xC5, true, 10021, 0⟩
        { received cfgT 0 0x11223344 0 [3] with cstate := .connected, tLast := 20, tTx := 20 })
      (fun t o => (t.cstate, t.tLast, t.tTx, o.txReq)) = some (.connected, 10021, 10021, true) := by
  decide +kernel

/-! ## Witnesses: for every statement of Certificates/Slice0/Obligations.lean with hypotheses, a state and operands that meet
them together, at the boundaries of their ranges -/

theorem test_witness_DecodeGivesBackEncodedInstruction :
    (Instr.msgNack 5).wf cfgT = true ∧ encode cfgT (.msgNack 5) = some (msgPacket 0x24 5) ∧
    (Instr.msgIllegal 0xFF 5).wf cfgT = true ∧ encode cfgT (.msgIllegal 0xFF 5) = some (msgPacket 0xFF 5) ∧
    (Instr.read [7] 5).wf cfgT = true ∧ (encode cfgT (.read [7] 5)).isSome = true := by
  decide +kernel

theorem test_witness_DecoderNeverGivesSubOperation : decode cfgT (eventPacket 4 0 0) = .ok .reset := by decide +kernel

theorem test_witness_PackedFieldEntryRoundTrip : (65535 : Nat) < 2 ^ 16 ∧ (255 : Nat) < 2 ^ 8 := by decide

theorem test_witness_StepRunsTheDecodedInstruction :
    configProblem (State.given idle (eventPacket 4 0 0)).cfg = none ∧
    (State.given idle (eventPacket 4 0 0)).input = eventPacket 4 0 0 :: [] ∧
    decode (State.given idle (eventPacket 4 0 0)).cfg (eventPacket 4 0 0) = .ok .reset := by
  decide +kernel

theorem test_witness_StepIsIdleWithoutAStimulus : configProblem idle.cfg = none ∧ idle.input = [] := by decide +kernel

theorem test_witness_IllFormedConfigurationIsRefused :
    configProblem ({ idle with cfg := { cfgT with h := 9 } } : State).cfg = some .headerLength := by
  decide +kernel

theorem test_witness_UndecodablePacketIsRefused :
    configProblem idle.cfg = none ∧ (State.given idle ⟨.sync, [1, 0, 0, 0, 0]⟩).input = ⟨.sync, [1, 0, 0, 0, 0]⟩ :: [] ∧
    decode idle.cfg ⟨.sync, [1, 0, 0, 0, 0]⟩ = .rejected .notSync := by
  decide +kernel

theorem test_witness_QueryReturnsTheTwoStates : idle.Inv ∧ nextOf (exec .reset connected) = some idle := by decide +kernel

/-- A state for each parser state, each meeting the invariant. -/
theorem test_witness_ByteRunsTheSelectedMicroOperation :
    [idle, afterSync, afterType, afterLength, afterObjId, beforeData, beforeCrc].map (·.pstate) =
      [.waitSync, .gotSync, .gotMsgType, .gotLength, .gotObjID, .gotInstID, .gotData] ∧
    ∀ s ∈ [idle, afterSync, afterType, afterLength, afterObjId, beforeData, beforeCrc], s.Inv := by
  decide +kernel

theorem test_witness_UnselectedMicroOperationIsRefused :
    (∀ q ∈ [PState.gotSync, .gotMsgType, .gotLength, .gotObjID, .gotInstID, .gotData, .gotCrc], idle.pstate ≠ q) ∧
    afterSync.pstate ≠ .waitSync ∧ ({ beforeCrc with pstate := .gotCrc } : State).pstate = .gotCrc := by
  decide +kernel

theorem test_witness_ReadIsBytesThenTick : idle.Inv ∧ beforeCrc.Inv :=
  ⟨by decide +kernel, by decide +kernel⟩

theorem test_witness_WaitSyncComparesWithTheMarker :
    idle.pstate = .waitSync ∧ (0x3C : Byte) = idle.cfg.syncVal ∧ (0x3D : Byte) ≠ idle.cfg.syncVal := by
  decide +kernel

theorem test_witness_GotSyncChecksTheMsgType :
    afterSync.pstate = .gotSync ∧
    ((0x24 : Byte) &&& afterSync.cfg.verMask = afterSync.cfg.verTag ∧
      ((0x24 : Byte) &&& ~~~afterSync.cfg.verMask) ∈ [afterSync.cfg.tObj, afterSync.cfg.tObjReq, afterSync.cfg.tObjAck,
        afterSync.cfg.tAck, afterSync.cfg.tNack]) ∧
    ¬((0x25 : Byte) &&& afterSync.cfg.verMask = afterSync.cfg.verTag ∧
      ((0x25 : Byte) &&& ~~~afterSync.cfg.verMask) ∈ [afterSync.cfg.tObj, afterSync.cfg.tObjReq, afterSync.cfg.tObjAck,
        afterSync.cfg.tAck, afterSync.cfg.tNack]) := by
  decide +kernel

theorem test_witness_FirstLengthByteIsTaken : afterType.pstate = .gotMsgType ∧ afterType.cnt = 0 := by decide +kernel

/-- The Length values H - 1, H, H + 255 and H + 256, under LE and under BE. -/
theorem test_witness_SecondLengthByteIsChecked :
    inLength.pstate = .gotMsgType ∧ inLength.cnt = 1 ∧ inLength.fLen = some 0x0A ∧
    (10 : Half) = (0 : Byte) ++ (0x0A : Half).extractLsb' 0 8 ∧ (266 : Half) = (1 : Byte) ++ (0x0A : Half).extractLsb' 0 8 ∧
    (9 : Half) = (0 : Byte) ++ (0x09 : Half).extractLsb' 0 8 ∧ (265 : Half) = (1 : Byte) ++ (0x09 : Half).extractLsb' 0 8 ∧
    (265 : Half) = (0x01 : Half).extractLsb' 0 8 ++ (9 : Byte) ∧
    (cfgT.h ≤ 10 ∧ 265 ≤ cfgT.h + 255) ∧ 9 < cfgT.h ∧ cfgT.h + 255 < 266 := by
  decide +kernel

/-- cnt = 0 and cnt = 2; cnt = 3 with H = 10 and with H = 8, without and with Data. -/
theorem test_witness_ObjIdBytesAreTaken :
    (∀ s ∈ [afterLength, { inObjId with cnt := 2 }, inObjId, inObjId8, inObjId8Data],
      s.pstate = .gotLength ∧ s.cnt.toNat ≤ 3 ∧ s.fLen.isSome = true ∧ (s.cnt ≠ 0 → s.fObjid.isSome = true)) ∧
    afterLength.cnt = 0 ∧ ({ inObjId with cnt := 2 } : State).cnt.toNat < 3 ∧ (inObjId.cnt = 3 ∧ inObjId.cfg.h = 10) ∧
    (inObjId8.cnt = 3 ∧ inObjId8.cfg.h = 8 ∧ inObjId8.fLen = some 8) ∧ inObjId8Data.fLen = some 12 := by
  decide +kernel

/-- V-PAR-22 (a) after its two Length bytes. -/
def afterLength8 : State := { inObjId8 with cnt := 0, crc := 0x98, fObjid := none }

theorem test_witness_HeaderFieldsAreAssembled :
    (afterLength.Inv ∧ afterLength.cnt = 0 ∧ afterLength.pstate = .gotLength ∧ afterLength.cfg.h = 10) ∧
    (afterLength8.Inv ∧ afterLength8.cnt = 0 ∧ afterLength8.pstate = .gotLength ∧ afterLength8.cfg.h = 8) ∧
    afterObjId.Inv ∧ afterObjId.cnt = 0 ∧ afterObjId.pstate = .gotObjID := by
  exact ⟨by decide +kernel, by decide +kernel, by decide +kernel⟩

theorem test_witness_InstIdBytesAreTaken :
    (afterObjId.pstate = .gotObjID ∧ afterObjId.cnt = 0) ∧ inInstId.pstate = .gotObjID ∧ inInstId.cnt = 1 ∧
    inInstId.fInstid = some 0 ∧ inInstId.fLen = some 10 := by
  decide +kernel

/-- The first of one Data byte, and the last of 255. -/
theorem test_witness_DataByteGoesToItsCell :
    (beforeData.pstate = .gotInstID ∧ beforeData.fLen = some 11 ∧ beforeData.cnt.toNat < dlenOf beforeData.cfg 11 ∧
      beforeData.cnt.toNat < 255) ∧
    lastCell.pstate = .gotInstID ∧ lastCell.fLen = some 265 ∧ lastCell.cnt.toNat < dlenOf lastCell.cfg 265 ∧
    lastCell.cnt.toNat < 255 := by
  decide +kernel

theorem test_witness_CrcMismatchDiscardsTheFrame :
    beforeCrc.pstate = .gotData ∧ (0x6F : Byte) ≠ crcFinal beforeCrc.cfg.crc beforeCrc.crc := by
  decide +kernel

/-- The frame of V-PAR-1. -/
def frame1 : Frame := ⟨0x20, 10, 0x04030201, 0, [], 0x90⟩

theorem test_witness_CrcMatchDispatchesTheFrame :
    configProblem beforeCrc.cfg = none ∧ FrameHeld beforeCrc frame1 ∧ frame1.crc = 0x90 ∧ beforeCrc.pstate = .gotData ∧
    (0x90 : Byte) = crcFinal beforeCrc.cfg.crc beforeCrc.crc ∧
    FrameHeld { beforeCrc with pstate := .gotCrc } frame1 ∧ ({ beforeCrc with pstate := .gotCrc } : State).pstate = .gotCrc := by
  decide +kernel

theorem test_witness_MsgTypeBytesInGotSync :
    afterSync.pstate = .gotSync ∧
    (∀ t ∈ [cfgT.tObj, cfgT.tObjReq, cfgT.tObjAck, cfgT.tAck, cfgT.tNack], legalMsgType cfgT (cfgT.verTag ||| t) = true) ∧
    legalMsgType cfgT 0x25 = false := by
  decide +kernel

theorem test_witness_WireBytesAreOrdinaryElsewhere : idle.pstate = .waitSync := by decide +kernel

theorem test_witness_NoSyncStreamStaysInWaitSync :
    idle.pstate = .waitSync ∧ ∀ b ∈ [(0 : Byte), 0x3B, 0x3D, 0xFF], b ≠ idle.cfg.syncVal := by
  decide +kernel

theorem test_witness_ParserReturnsWithinBound :
    afterSync.Inv ∧ afterSync.cfg.h + 256 ≤ (List.replicate 266 (0x3C : Byte)).length := by
  exact ⟨by decide +kernel, by rw [List.length_replicate]; decide⟩

theorem test_witness_ChunkingDoesNotMatter : beforeData.Inv ∧ connected.Inv :=
  ⟨by decide +kernel, by decide +kernel⟩

/-- Of 0 and of 255 Data bytes. -/
theorem test_witness_WellFormedFrameIsEmitted :
    idle.Inv ∧ idle.pstate = .waitSync ∧ legalMsgType idle.cfg (idle.cfg.verTag ||| 4) = true ∧
    ([] : List Byte).length ≤ 255 ∧ (List.replicate 255 (0x3C : Byte)).length ≤ 255 := by
  exact ⟨by decide +kernel, rfl, by decide +kernel, by decide, by rw [List.length_replicate]⟩

/-- A Crc byte wrong in one bit (V-ENC-8's frame, whose Crc byte is 52). -/
theorem test_witness_RecoversAfterBadCrc :
    (0x53 : Byte) ≠ frameCrc idle.cfg (frameBody idle.cfg 0 0x00C0FFEE 0 [1, 0, 0, 0]) ∧ idle.Inv ∧ idle.pstate = .waitSync ∧ legalMsgType idle.cfg (idle.cfg.verTag ||| 0) = true ∧
    legalMsgType idle.cfg (idle.cfg.verTag ||| 1) = true ∧ [(1 : Byte), 0, 0, 0].length ≤ 255 ∧ ([] : List Byte).length ≤ 255 := by
  decide +kernel

/-- A miss; a hit whose fields end exactly at the Data length; a hit one byte short. -/
theorem test_witness_LookupFindsTheDescriptor :
    (∀ d ∈ cfgT.desc, d.objid ≠ 0x00C0FFEF) ∧
    (∃ d rest, cfgT.desc = [] ++ d :: rest ∧ d.objid = 0xA1B2C3D4 ∧
      (∀ f ∈ d.fields, f.off + widthBytes f.width ≤ dlenOf cfgT 19) ∧
      ∃ f ∈ d.fields, dlenOf cfgT 18 < f.off + widthBytes f.width) := by
  exact ⟨by decide +kernel, _, _, rfl, rfl, by decide +kernel, by decide +kernel⟩

theorem test_witness_ExtractGivesTheTypedValue :
    Memory.readBytes fiveBytes.dbuf 2 (widthBytes .w2) = some [0xFE, 0xFF] ∧
    Memory.readBytes fiveBytes.dbuf 4 (widthBytes .w1) = some [0x80] ∧
    Memory.readBytes fiveBytes.dbuf 1 (widthBytes .w4) = some [0x27, 0xFE, 0xFF, 0x80] := by
  decide +kernel

theorem test_witness_FieldReadIsABitSlice :
    Memory.readBytes fiveBytes.dbuf 0 5 = some [0x10, 0x27, 0xFE, 0xFF, 0x80] ∧ 1 + 4 ≤ 5 ∧ 5 + 0 ≤ 5 := by
  decide +kernel

/-- Slot nSlots - 1 exists, slot nSlots does not. -/
theorem test_witness_PublishWritesExactlyTheNamedSlots :
    (∀ p ∈ [(7, (1 : Word)), (0, 2)], p.1 < idle.cfg.nSlots) ∧ ([(7, (1 : Word)), (0, 2)].map (·.1)).Nodup ∧
    ∃ p ∈ [(0, (1 : Word)), (8, 1)], idle.cfg.nSlots ≤ p.1 := by
  decide +kernel

/-- V-EXT-1 before its Crc byte. -/
def nineBytes : State := received cfgT 0 0xA1B2C3D4 0 [0x10, 0x27, 0xFE, 0xFF, 0, 0, 0x80, 0x3F, 2]

/-- An unknown ObjID (V-PAR-1), no Data where nine bytes are needed (V-EXT-5), Data that just fits (V-EXT-1), no field at all
(V-PAR-19 (a)). -/
theorem test_witness_DispatchPublishesAllOrNothing :
    (beforeCrc.Inv ∧ beforeCrc.pstate = .gotData ∧ (0x90 : Byte) = crcFinal beforeCrc.cfg.crc beforeCrc.crc ∧
      FrameHeld beforeCrc frame1 ∧ ∀ d ∈ cfgT.desc, d.objid ≠ frame1.objid) ∧
    ((received cfgT 0 0xA1B2C3D4 0 []).Inv ∧
      FrameHeld (received cfgT 0 0xA1B2C3D4 0 []) ⟨0x20, 10, 0xA1B2C3D4, 0, [], 0x22⟩ ∧
      (received cfgT 0 0xA1B2C3D4 0 []).crcByte = 0x22) ∧
    (nineBytes.Inv ∧ FrameHeld nineBytes ⟨0x20, 19, 0xA1B2C3D4, 0, [0x10, 0x27, 0xFE, 0xFF, 0, 0, 0x80, 0x3F, 2], 0xF8⟩ ∧
      nineBytes.crcByte = 0xF8) ∧
    afterData.Inv ∧ FrameHeld afterData ⟨0x20, 11, 0xE000, 7, [0x3C], 0xF0⟩ ∧ afterData.crcByte = 0xF0 := by
  exact ⟨by decide +kernel, by decide +kernel, by decide +kernel, by decide +kernel⟩

/-- The descriptor 0x00C0FFEE with its one field at the largest value of its width, the Data just long enough. -/
theorem test_witness_FieldValuesRoundTrip :
    idle.Inv ∧ idle.pstate = .waitSync ∧ legalMsgType idle.cfg (idle.cfg.verTag ||| idle.cfg.tObj) = true ∧
    (⟨0x00C0FFEE, [⟨4, 0, .w4, .uint⟩]⟩ : Descriptor) ∈ idle.cfg.desc ∧
    0 + widthBytes .w4 ≤ [(0xFF : Byte), 0xFF, 0xFF, 0xFF].length ∧ 0xFFFFFFFF < 256 ^ widthBytes .w4 ∧
    ([(0xFF : Byte), 0xFF, 0xFF, 0xFF].drop 0).take (widthBytes .w4) =
      bytesOf idle.cfg.byteOrder (widthBytes .w4) 0xFFFFFFFF := by
  decide +kernel

/-- A stats frame whose status byte is its last Data byte, and one a byte too short. -/
theorem test_witness_FrameRunsStatsOnlyOnValidStats :
    (FrameHeld (received cfgT3 0 0x11223344 0 [0, 0, 0, 9]) ⟨0x20, 14, 0x11223344, 0, [0, 0, 0, 9], 0⟩ ∧
      (0x11223344 : Word) = cfgT3.statsObjId ∧ [(0 : Byte), 0, 0, 9][cfgT3.statsStatusOff.val]? = some 9) ∧
    FrameHeld (received cfgT3 0 0x11223344 0 [1, 1, 1]) ⟨0x20, 13, 0x11223344, 0, [1, 1, 1], 0⟩ ∧
    [(1 : Byte), 1, 1].length ≤ cfgT3.statsStatusOff.val ∧ (0xE000 : Word) ≠ cfgT3.statsObjId := by
  decide +kernel

theorem test_witness_StatsMakesAtMostOneForwardStep :
    (idle.cstate = .disconnected ∧ (1 : Byte) = idle.cfg.psHsReq) ∧
    (({ idle with cstate := .handshakeRequested } : State).cstate = .handshakeRequested ∧ (2 : Byte) = idle.cfg.psHsAck) ∧
    (({ idle with cstate := .handshakeAcknowledged } : State).cstate = .handshakeAcknowledged ∧
      (3 : Byte) = idle.cfg.psConn) ∧
    ¬(connected.cstate = .disconnected ∧ (1 : Byte) = connected.cfg.psHsReq) ∧
    ¬(connected.cstate = .handshakeRequested ∧ (1 : Byte) = connected.cfg.psHsAck) ∧
    ¬(connected.cstate = .handshakeAcknowledged ∧ (1 : Byte) = connected.cfg.psConn) := by
  decide +kernel

/-- One millisecond past T_CONNECT, and exactly T_CONNECT. -/
theorem test_witness_TimeoutDemotesStaleLink :
    (connected.cstate ≠ .disconnected ∧ connected.cfg.tConnect < ((15001 : Time) - connected.tLast).toNat) ∧
    ((15000 : Time) - connected.tLast).toNat ≤ connected.cfg.tConnect ∧ idle.cstate = .disconnected := by
  decide +kernel

theorem test_witness_OneDemotionPerStaleInterval :
    ∃ t, exec (.tick 15001) connected = .next t ∧ t.out.err = some .handshakeTimeout := by
  exact ⟨_, rfl, rfl⟩

/-- Exactly T_PERIOD, and one millisecond less; passive; Disconnected. -/
theorem test_witness_PeriodRequestsStats :
    (connected.cstate ≠ .disconnected ∧ connected.passive = false ∧
      connected.cfg.tPeriod ≤ ((6000 : Time) - connected.tTx).toNat) ∧
    ((5999 : Time) - connected.tTx).toNat < connected.cfg.tPeriod ∧ idle.cstate = .disconnected ∧
    ({ connected with passive := true } : State).passive = true := by
  decide +kernel

theorem test_witness_PassiveModeNeverRequests :
    (State.given (State.initial cfgTP) (eventPacket 2 0 9)).Inv ∧ (State.initial cfgTP).passive = true ∧
    (nextOf (step (State.given (State.initial cfgTP) (eventPacket 2 0 9)))).isSome = true := by
  decide +kernel

theorem test_witness_PassiveModeChangesOnlyRequests :
    idle.withoutTx = ({ State.initial cfgTP with tTx := 7 } : State).withoutTx ∧
    (nextOf (exec (.cStats 1 1000) idle)).isSome = true := by
  decide +kernel

theorem test_witness_ThreeStatsFramesConnect :
    idle.Inv ∧ idle.pstate = .waitSync ∧ idle.cstate = .disconnected ∧
    legalMsgType idle.cfg (idle.cfg.verTag ||| idle.cfg.tObj) = true := by
  decide +kernel

theorem test_witness_StepKeepsTheInvariant :
    (State.given beforeCrc (eventPacket 1 0x90 9)).Inv ∧ (State.given beforeCrc (eventPacket 1 0x90 9)).ChecksumOk ∧
    (nextOf (step (State.given beforeCrc (eventPacket 1 0x90 9)))).isSome = true := by
  decide +kernel

theorem test_witness_StepKeepsTheChecksum :
    (State.given inObjId (eventPacket 1 4 9)).Inv ∧ (State.given inObjId (eventPacket 1 4 9)).ChecksumOk ∧
    (nextOf (step (State.given inObjId (eventPacket 1 4 9)))).isSome = true := by
  decide +kernel

theorem test_witness_NoEventStops :
    beforeCrc.Inv ∧ isHostOp (.byte 0x90 9) = true ∧ isHostOp (.read [1] 9) = true ∧ isHostOp (.tick 9) = true := by
  decide +kernel

theorem test_witness_ConfigurationIsReadOnly : (nextOf (exec (.byte 0x90 9) beforeCrc)).isSome = true := by decide +kernel

theorem test_witness_ComponentsOwnTheirState :
    (isByteStep (.byte 1 9) = true ∧ got (exec (.byte 1 9) afterLength) (·.out.frame) = some none) ∧
    got (exec (.byte 0xCB 9) (received cfgT 0 0x11223344 0 [1])) (·.cstate) = some .handshakeRequested ∧
    (nextOf (exec (.tick 9) connected)).isSome = true ∧ (nextOf (exec .query connected)).isSome = true := by
  decide +kernel

theorem test_witness_ParserMovesAlongTheEdges : (nextOf (exec (.byte 0 9) inObjId8)).isSome = true := by decide +kernel

theorem test_witness_CycleRunsByteThenTick :
    (⟨true, true, 1, true, 5, 0⟩ : PortIn).rst = true ∧
    ((⟨false, true, 1, true, 5, 0⟩ : PortIn).rst = false ∧ (⟨false, true, 1, true, 5, 0⟩ : PortIn).inValid = true ∧
      (⟨false, true, 1, true, 5, 0⟩ : PortIn).tick = true) ∧
    (nextOf (exec (.byte 1 5) idle)).isSome = true ∧ (nextOf (exec (.tick 5) idle)).isSome = true := by
  decide +kernel

end Sys2Proof.Tests
end

namespace Sys2Proof.Machine

/-! ## What step answers (00_scope.md R6, R7, R12) -/

/-- An ill-formed configuration is refused by name (R12). -/
theorem step_of_configProblem {s : State} {p : ConfigProblem} (h : configProblem s.cfg = some p) :
    step s = .refused (.illFormedConfig p) := by
  simp only [step, h]

/-- Under a well-formed configuration the oldest stimulus is taken off the queue, decoded and performed (R6, R7). -/
theorem step_of_decode_ok {s : State} {p : Packet} {rest : List Packet} {i : Instr} (hc : configProblem s.cfg = none)
    (hq : s.input = p :: rest) (hd : decode s.cfg p = .ok i) : step s = exec i { s with input := rest } := by
  simp only [step, hc, fetch, hq, hd]

/-- Settles O8: the queue's head is fetched and decoded, and `step` hands it to `exec`. -/
theorem stepRunsTheDecodedInstruction : Obligations.StepRunsTheDecodedInstruction := by
  unfold Obligations.StepRunsTheDecodedInstruction
  exact fun s p rest i hc hq hd => step_of_decode_ok hc hq hd

/-! ## What each format decodes to -/

/-- The event word's op stands for an event, never for a sub-operation (R83). -/
theorem isSubOp_eventOfOp (op : BitVec 3) (b : Byte) (now : Time) : isSubOp (eventOfOp op b now) = false := by
  unfold eventOfOp
  split_ifs <;> rfl

/-- A byte of the MsgType format is a MsgType row (R80). -/
theorem isSubOp_msgOf (cfg : Config) (b : Byte) (now : Time) : isSubOp (msgOf cfg b now) = false := by
  unfold msgOf
  split <;> rfl

/-- A pstate code selects a micro-operation (R84, R120). -/
theorem isSubOp_microOfCode (code : BitVec 3) (b : Byte) (now : Time) : isSubOp (microOfCode code b now) = false := by
  unfold microOfCode
  split_ifs <;> rfl

/-- An event-word packet decodes only to the event of some op (R83). -/
theorem eq_eventOfOp_of_decodeEvent {bs : List Byte} {i : Instr} (h : decodeEvent bs = .ok i) :
    ∃ op b now, i = eventOfOp op b now := by
  unfold decodeEvent at h
  split at h
  · split at h
    · cases h; exact ⟨_, _, _, rfl⟩
    · cases h
  · cases h

/-- A pseudo-event packet decodes only to a READ (R91). -/
theorem eq_read_of_decodeRead {bs : List Byte} {i : Instr} (h : decodeRead bs = .ok i) :
    ∃ cs now, i = .read cs now := by
  unfold decodeRead at h
  split at h
  · split at h
    · cases h; exact ⟨_, _, rfl⟩
    · split at h
      · split at h
        · cases h; exact ⟨_, _, rfl⟩
        · cases h
      · cases h
      · cases h
    · cases h
    · cases h
  · cases h

/-- A MsgType packet decodes only to the MsgType row of some byte (R80). -/
theorem eq_msgOf_of_decodeMsg {cfg : Config} {bs : List Byte} {i : Instr} (h : decodeMsg cfg bs = .ok i) :
    ∃ b now, i = msgOf cfg b now := by
  unfold decodeMsg at h
  split at h
  · cases h; exact ⟨_, _, rfl⟩
  · cases h

/-- A sync-byte packet decodes only to SYNC (R71). -/
theorem eq_sync_of_decodeSync {cfg : Config} {bs : List Byte} {i : Instr} (h : decodeSync cfg bs = .ok i) :
    ∃ now, i = .sync now := by
  unfold decodeSync at h
  split at h
  · split at h
    · cases h; exact ⟨_, rfl⟩
    · cases h
  · cases h

/-- A micro-operation packet decodes only to the micro-operation of some code (R120). -/
theorem eq_microOfCode_of_decodeMicro {bs : List Byte} {i : Instr} (h : decodeMicro bs = .ok i) :
    ∃ code b now, i = microOfCode code b now := by
  unfold decodeMicro at h
  split at h
  · split at h
    · cases h; exact ⟨_, _, _, rfl⟩
    · cases h
  · cases h

/-- Settles O2: each format decodes only to rows of its own, and none of those is a sub-operation. -/
theorem decoderNeverGivesSubOperation : Obligations.DecoderNeverGivesSubOperation := by
  unfold Obligations.DecoderNeverGivesSubOperation
  intro cfg p i h
  unfold decode at h
  cases hf : p.fmt with rw [hf] at h
  | event =>
    obtain ⟨op, b, now, rfl⟩ := eq_eventOfOp_of_decodeEvent h
    exact isSubOp_eventOfOp op b now
  | read =>
    obtain ⟨cs, now, rfl⟩ := eq_read_of_decodeRead h
    rfl
  | msgType =>
    obtain ⟨b, now, rfl⟩ := eq_msgOf_of_decodeMsg h
    exact isSubOp_msgOf cfg b now
  | sync =>
    obtain ⟨now, rfl⟩ := eq_sync_of_decodeSync h
    rfl
  | microOp =>
    obtain ⟨code, b, now, rfl⟩ := eq_microOfCode_of_decodeMicro h
    exact isSubOp_microOfCode code b now

/-! ## The conditions of R12 -/

/-- `allDistinct` decides that no value occurs twice. -/
theorem allDistinct_iff_nodup {α : Type} [DecidableEq α] (l : List α) : allDistinct l = true ↔ l.Nodup := by
  induction l with
  | nil => simp [allDistinct]
  | cons a rest ih => simp [allDistinct, ih]

/-- A condition on every field entry, said of the descriptors and their fields. -/
theorem everyField_iff (cfg : Config) (p : FieldEntry → Bool) :
    everyField cfg p = true ↔ ∀ d ∈ cfg.desc, ∀ f ∈ d.fields, p f = true := by
  simp [everyField]

/-- CRC_INIT has CRC_W bits, and the default CRC-8 has CRC_W = 8 (R108). -/
theorem crcShapeOk_iff (c : CrcConfig) :
    crcShapeOk c = true ↔ c.init < 2 ^ c.width ∧ (c.alg = .crc8 → c.width = 8) := by
  simp [crcShapeOk, imp_iff_not_or]

/-- No problem is named exactly where every condition of the list holds (R12). -/
theorem configProblem_eq_none_iff (cfg : Config) :
    configProblem cfg = none ↔ ∀ c ∈ configConditions cfg, c.1 = true := by
  simp [configProblem]

/-- Settles O10: each condition of the list reads as its clause of R12, the three on field entries under one quantifier
(`forall_and`); a named problem is refused by `step`'s first branch. -/
theorem illFormedConfigurationIsRefused : Obligations.IllFormedConfigurationIsRefused := by
  unfold Obligations.IllFormedConfigurationIsRefused
  refine ⟨fun cfg => ?_, fun s p => step_of_configProblem⟩
  rw [configProblem_eq_none_iff]
  simp only [configConditions, List.forall_mem_cons, Bool.or_eq_true, beq_iff_eq, everyField_iff,
    allDistinct_iff_nodup, crcShapeOk_iff, List.all_eq_true, decide_eq_true_eq, typeValues, peerValues, bne_iff_ne,
    ← imp_iff_not_or, forall_and, and_assoc, List.not_mem_nil, false_imp_iff, implies_true, and_true]

/-! ## What a well-formed configuration gives (R12) -/

/-- H is 8 or 10. -/
theorem header_of_wellFormed {cfg : Config} (h : configProblem cfg = none) : cfg.h = 8 ∨ cfg.h = 10 := by
  simpa using (configProblem_eq_none_iff cfg).1 h (cfg.h == 8 || cfg.h == 10, .headerLength) (by simp [configConditions])

/-- CRC_INIT and the default CRC-8 have CRC_W bits. -/
theorem crcShapeOk_of_wellFormed {cfg : Config} (h : configProblem cfg = none) : crcShapeOk cfg.crc = true :=
  (configProblem_eq_none_iff cfg).1 h (crcShapeOk cfg.crc, .crcShape) (by simp [configConditions])

/-- Every field of the table names a slot that exists. -/
theorem slot_lt_of_wellFormed {cfg : Config} (h : configProblem cfg = none) {d : Descriptor} (hd : d ∈ cfg.desc)
    {f : FieldEntry} (hf : f ∈ d.fields) : f.slot < cfg.nSlots := by
  have hslots : everyField cfg (fun f => decide (f.slot < cfg.nSlots)) = true :=
    (configProblem_eq_none_iff cfg).1 h (everyField cfg fun f => decide (f.slot < cfg.nSlots), .fieldSlot)
      (by simp only [configConditions, List.mem_cons, true_or, or_true])
  simpa using (everyField_iff cfg _).1 hslots d hd f hf

/-! ## The storages: which cells hold a value -/

/-- A cell reads as a value exactly where it is listed. -/
theorem Memory.read_isSome_iff {α : Type} (m : Memory α) (a : Nat) :
    (Memory.read m a).isSome = true ↔ a ∈ m.map (·.1) := by
  induction m with
  | nil => simp
  | cons c rest ih =>
    obtain ⟨k, x⟩ := c
    by_cases h : k = a
    · simp [Memory.read, h]
    · simp [Memory.read, h, ih, Ne.symm h]

/-- A write above every listed address is put at the end. -/
theorem Memory.write_eq_append {α : Type} (m : Memory α) (a : Nat) (v : α) (h : ∀ k ∈ m.map (·.1), k < a) :
    Memory.write m a v = m ++ [(a, v)] := by
  induction m with
  | nil => rfl
  | cons c rest ih =>
    obtain ⟨k, x⟩ := c
    simp only [List.map_cons, List.forall_mem_cons] at h
    obtain ⟨hk, hrest⟩ := h
    simp only [Memory.write, if_neg (Nat.not_lt_of_lt hk), if_neg (Nat.ne_of_gt hk), ih hrest, List.cons_append]

/-- Where the cells 0 to n-1 are listed, a write to cell n lists one more. -/
theorem Memory.keys_write_of_keys_eq_range {α : Type} {m : Memory α} {n : Nat} (v : α)
    (h : m.map (·.1) = List.range n) : (Memory.write m n v).map (·.1) = List.range (n + 1) := by
  rw [Memory.write_eq_append m n v (by simp [h]), List.map_append, h, List.range_succ]
  rfl

/-- Where the cells 0 to n-1 are listed, every range inside them can be read. -/
theorem Memory.exists_readBytes_of_keys_eq_range {m : Memory Byte} {n : Nat} (h : m.map (·.1) = List.range n)
    {a k : Nat} (hk : a + k ≤ n) : ∃ bs, Memory.readBytes m a k = some bs := by
  rw [← Option.isSome_iff_exists, Memory.readBytes_isSome_iff]
  intro j hj
  rw [Memory.read_isSome_iff, h, List.mem_range]
  omega

/-- A publication to slots that exist keeps to slots that exist, in the canonical form (R31, R158). -/
theorem snapHeld_publish {s : State} {pairs : List (Nat × Word)} (h : SnapHeld s)
    (hp : ∀ p ∈ pairs, p.1 < s.cfg.nSlots) : SnapHeld (s.publish pairs) := by
  obtain ⟨hwf, hslots⟩ := h
  refine ⟨Memory.writeAll_wf _ _ hwf, fun p hmem => ?_⟩
  rcases (Memory.mem_keys_writeAll s.snap pairs p.1).1 (List.mem_map_of_mem hmem) with hk | hk
  · obtain ⟨q, hq, hqp⟩ := List.mem_map.1 hk
    exact hqp ▸ hp q hq
  · obtain ⟨q, hq, hqp⟩ := List.mem_map.1 hk
    exact hqp ▸ hslots q hq

/-! ## A field taken byte by byte (R76) -/

/-- A shift to the left by `n` adds at most `n` bits. -/
theorem toNat_shiftLeft_lt {w m : Nat} {x : BitVec w} (hx : x.toNat < 2 ^ m) (n : Nat) :
    (x <<< n).toNat < 2 ^ (m + n) := by
  rw [BitVec.toNat_shiftLeft, Nat.shiftLeft_eq, Nat.pow_add]
  exact (Nat.mod_le _ _).trans_lt (Nat.mul_lt_mul_of_pos_right hx (Nat.two_pow_pos n))

/-- A byte set to any width is below 2^8. -/
theorem toNat_setWidth_byte_lt (w : Nat) (b : Byte) : (b.setWidth w).toNat < 2 ^ 8 := by
  rw [BitVec.toNat_setWidth]
  exact (Nat.mod_le _ _).trans_lt b.isLt

/-- After `k` bytes of a field and one more, no bit above the bytes taken is set. -/
theorem asmStep_lt {w : Nat} (o : ByteOrder) {k : Nat} {r : BitVec w} (b : Byte) (hr : r.toNat < 256 ^ k) :
    (asmStep o k r b).toNat < 256 ^ (k + 1) := by
  have hpow (n : Nat) : 256 ^ n = 2 ^ (8 * n) := by rw [Nat.pow_mul]
  have hb := toNat_setWidth_byte_lt w b
  have hle : 2 ^ 8 ≤ 2 ^ (8 * k + 8) := Nat.pow_le_pow_right two_pos (by omega)
  rw [hpow] at hr ⊢
  rw [Nat.mul_succ]
  unfold asmStep
  split_ifs
  · exact hb.trans_le hle
  · cases o with
    | le =>
      have hshift := toNat_shiftLeft_lt hb (8 * k)
      rw [Nat.add_comm] at hshift
      exact BitVec.toNat_or .. ▸ Nat.or_lt_two_pow (hr.trans_le (Nat.pow_le_pow_right two_pos (by omega))) hshift
    | be => exact BitVec.toNat_or .. ▸ Nat.or_lt_two_pow (toNat_shiftLeft_lt hr 8) (hb.trans_le hle)

/-- A field of which `cnt` bytes were taken: none yet, or a value with no bit above them (R22, R23). -/
def PartialField {w : Nat} (cnt : Byte) (r : Option (BitVec w)) : Prop :=
  r.isSome = (cnt != 0) ∧ r.all (fun v => decide (v.toNat < 256 ^ cnt.toNat)) = true

@[simp] theorem partialField_zero {w : Nat} (r : Option (BitVec w)) : PartialField 0#8 r ↔ r = none := by
  cases r <;> simp [PartialField]

/-- The register of a field in part taken accepts the next byte (R76). -/
theorem PartialField.exists_asmReg {w : Nat} {cnt : Byte} {r : Option (BitVec w)} (h : PartialField cnt r) (o : ByteOrder)
    (b : Byte) : ∃ v, asmReg o cnt.toNat r b = some v ∧ v.toNat < 256 ^ (cnt.toNat + 1) := by
  by_cases h0 : cnt = 0
  · subst h0
    exact ⟨_, rfl, asmStep_lt o (k := 0) b (by simp)⟩
  · have hn : cnt.toNat ≠ 0 := by simpa [BitVec.toNat_eq] using h0
    obtain ⟨hs, hlt⟩ := h
    obtain ⟨v, rfl⟩ := Option.isSome_iff_exists.1 (hs.trans (by simpa using h0))
    exact ⟨_, by simp only [asmReg, if_neg hn]; rfl, asmStep_lt o b (by simpa using hlt)⟩

/-- The first byte of a field is a field of which one byte was taken. -/
theorem partialField_one_setWidth {w : Nat} (b : Byte) : PartialField 1 (some (b.setWidth w)) := by
  exact ⟨rfl, by simpa using toNat_setWidth_byte_lt w b⟩

/-- One byte more is taken. -/
theorem partialField_succ {w : Nat} {cnt : Byte} {v : BitVec w} (hv : v.toNat < 256 ^ (cnt.toNat + 1))
    (hcnt : cnt.toNat < 255) : PartialField (cnt + 1) (some v) := by
  have hsucc : (cnt + 1).toNat = cnt.toNat + 1 := by bv_omega
  have hne : cnt + 1 ≠ 0 := by bv_omega
  exact ⟨by simpa using hne, by simpa only [Option.all_some, decide_eq_true_eq, hsucc] using hv⟩

/-- Of a field of two bytes at most one is taken in part, so its bound is that of one byte (R22). -/
theorem partialField_iff_of_le_one {w : Nat} {cnt : Byte} (r : Option (BitVec w)) (h : cnt.toNat ≤ 1) :
    PartialField cnt r ↔ r.isSome = (cnt != 0) ∧ r.all (fun v => decide (v.toNat < 256)) = true := by
  have hcnt : cnt = 0 ∨ cnt = 1 := by simp only [BitVec.toNat_eq]; exact Nat.le_one_iff_eq_zero_or_eq_one.1 h
  rcases hcnt with rfl | rfl
  · cases r <;> simp [PartialField]
  · simp [PartialField]

/-! ## What the invariant says in each parser state (R23) -/

/-- The part of the invariant that is the same in every parser state. -/
def State.CommonInv (s : State) : Prop :=
  configProblem s.cfg = none ∧ SnapHeld s ∧ s.passive = s.cfg.passive ∧ s.crc < 2 ^ s.cfg.crc.width

/-- A field whose every byte was taken, of a legal value (R23). -/
abbrev FieldHeld {α : Type} (legal : α → Bool) (r : Option α) : Prop := r.isSome = true ∧ r.all legal = true

/-- Every frame register holds its field, f_instid 0 where H = 8 (R23 to R27). -/
abbrev State.HeaderHeld (s : State) : Prop :=
  FieldHeld (legalMsgType s.cfg) s.fType ∧ FieldHeld (legalLength s.cfg) s.fLen ∧ s.fObjid.isSome = true ∧
    s.fInstid.isSome = true ∧ (s.cfg.h = 8 → s.fInstid.all (fun v => v == 0) = true)

/-- The part of the invariant that is about the parser, said parser state by parser state (R22, R23). -/
abbrev State.ParserInv (s : State) : Prop :=
  match s.pstate with
  | .waitSync => s.crc = s.cfg.crc.init ∧ s.cnt = 0 ∧ s.fType = none ∧ s.fLen = none ∧ s.fObjid = none ∧
      s.fInstid = none ∧ s.dbuf = []
  | .gotSync => s.cnt = 0 ∧ s.fType = none ∧ s.fLen = none ∧ s.fObjid = none ∧ s.fInstid = none ∧ s.dbuf = []
  | .gotMsgType => s.cnt.toNat ≤ 1 ∧ FieldHeld (legalMsgType s.cfg) s.fType ∧ PartialField s.cnt s.fLen ∧
      s.fObjid = none ∧ s.fInstid = none ∧ s.dbuf = []
  | .gotLength => s.cnt.toNat ≤ 3 ∧ FieldHeld (legalMsgType s.cfg) s.fType ∧ FieldHeld (legalLength s.cfg) s.fLen ∧
      PartialField s.cnt s.fObjid ∧ s.fInstid = none ∧ s.dbuf = []
  | .gotObjID => s.cfg.h = 10 ∧ s.cnt.toNat ≤ 1 ∧ FieldHeld (legalMsgType s.cfg) s.fType ∧
      FieldHeld (legalLength s.cfg) s.fLen ∧ s.fObjid.isSome = true ∧ PartialField s.cnt s.fInstid ∧ s.dbuf = []
  | .gotInstID => s.HeaderHeld ∧ s.cnt.toNat < dlenOf s.cfg (s.fLen.getD 0) ∧
      s.dbuf.map (·.1) = List.range s.cnt.toNat
  | .gotData => s.cnt = 0 ∧ s.HeaderHeld ∧ s.dbuf.map (·.1) = List.range (dlenOf s.cfg (s.fLen.getD 0))
  | .gotCrc => False

/-- The invariant, taken apart: `State.ParserInv` is R22, R23 and R41 read in each parser state. -/
theorem inv_iff (s : State) : s.Inv ↔ s.CommonInv ∧ s.ParserInv := by
  have hz : s.cnt.toNat ≤ 0 ↔ s.cnt = 0 := by simp [BitVec.toNat_eq]
  unfold State.Inv State.CommonInv State.ParserInv
  cases hp : s.pstate <;>
    simp only [countBound, dataCount, PState.rank, RegistersHeld, RegistersLegal, DataHeld, hp, hz, beq_eq_decide,
      reduceCtorEq, Nat.reduceLeDiff, decide_true, decide_false, Bool.false_and, Bool.true_and, Bool.false_or,
      Bool.true_or, Option.isSome_eq_false_iff, Option.isNone_iff_eq_none, ne_eq, not_true_eq_false,
      not_false_eq_true, true_and, false_and, and_false, forall_const, false_imp_iff, List.range_zero,
      List.map_eq_nil_iff]
  case waitSync => grind
  case gotSync => grind
  case gotMsgType => grind [partialField_iff_of_le_one]
  case gotLength => grind [PartialField]
  case gotObjID => grind [partialField_iff_of_le_one]
  case gotInstID => grind
  case gotData => grind

/-! ## The operations a dispatch step is made of -/

/-- D.LOOKUP's report writes only the output record (R152, R153). -/
theorem State.noteLookup_eq (s : State) (hit : Option Descriptor) (n : Nat) :
    ∃ out, s.noteLookup hit n = { s with out := out } := by
  refine ⟨(s.noteLookup hit n).out, ?_⟩
  unfold State.noteLookup
  cases hit with
  | none => rfl
  | some d => dsimp only; split_ifs <;> rfl

/-- The dispatcher writes only the snapshot and the output record, and the snapshot only in slots that exist (R150, R158). -/
theorem dispatchObject_writes {s t : State} (h : dispatchObject s = .next t) :
    ∃ snap out, t = { s with snap := snap, out := out } ∧ (SnapHeld s → SnapHeld t) := by
  obtain ⟨_, _, _, _, ⟨_, rfl⟩ | ⟨_, _, ⟨_, rfl⟩ | ⟨_, pairs, _, hslots, rfl⟩⟩⟩ := dispatchObject_cases s t h
  · exact ⟨_, _, rfl, id⟩
  · obtain ⟨out, hout⟩ := s.noteLookup_eq (some _) _
    exact ⟨_, _, hout, fun hs => hout ▸ hs⟩
  · exact ⟨_, _, rfl, fun hs => snapHeld_publish hs hslots⟩

/-- C.STATS writes only the registers of the Connection State Machine and the output record (R176). -/
theorem State.takeStats_eq (s : State) (ps : Byte) (now : Time) :
    ∃ c l x out, s.takeStats ps now = { s with cstate := c, tLast := l, tTx := x, out := out } := by
  rcases s.takeStats_cases ps now with ⟨_, h⟩ | ⟨_, _, h⟩ | ⟨_, _, h⟩
  · exact ⟨_, _, _, _, h⟩
  · exact ⟨_, _, _, _, h⟩
  · exact ⟨_, _, _, _, h⟩

/-- C.FRAME writes only the registers of the Connection State Machine and the output record (R173). -/
theorem State.takeFrame_eq (s : State) (objid : Word) (data : List Byte) (now : Time) :
    ∃ c l x out, s.takeFrame objid data now = { s with cstate := c, tLast := l, tTx := x, out := out } := by
  rcases s.takeFrame_cases objid data now with ⟨_, h⟩ | ⟨ps, _, h⟩
  · exact ⟨_, _, _, _, h⟩
  · obtain ⟨c, l, x, out, hstats⟩ := State.takeStats_eq { s with out := { s.out with activity := true } } ps now
    exact ⟨c, l, x, out, h.trans hstats⟩

/-- Fields that lie inside the Data received can all be extracted, each to its own slot (R153, R154, R157). -/
theorem exists_extractAll (cfg : Config) {dbuf : Memory Byte} {n : Nat} (hd : dbuf.map (·.1) = List.range n)
    (fs : List FieldEntry) (hfit : ∀ f ∈ fs, f.off + widthBytes f.width ≤ n) :
    ∃ pairs, extractAll cfg dbuf fs = some pairs ∧ pairs.map (·.1) = fs.map (·.slot) := by
  induction fs with
  | nil => exact ⟨[], rfl, rfl⟩
  | cons f fs ih =>
    rw [List.forall_mem_cons] at hfit
    obtain ⟨hf, hfs⟩ := hfit
    obtain ⟨bs, hbs⟩ := Memory.exists_readBytes_of_keys_eq_range hd hf
    obtain ⟨pairs, hpairs, hslots⟩ := ih hfs
    obtain ⟨v, hv⟩ : ∃ v, extractField cfg dbuf f = some v := ⟨_, by rw [extractField, hbs, Option.map_some]⟩
    exact ⟨(f.slot, v) :: pairs, by simp only [extractAll, hv, hpairs], by simp only [List.map_cons, hslots]⟩

/-- The dispatcher answers a next state where the registers hold a frame and the Data buffer holds its Data (R150). -/
theorem exists_dispatchObject {s : State} {objid : Word} {len : Half} (hc : configProblem s.cfg = none)
    (ho : s.fObjid = some objid) (hl : s.fLen = some len) (hd : s.dbuf.map (·.1) = List.range (dlenOf s.cfg len)) :
    ∃ t, dispatchObject s = .next t := by
  simp only [dispatchObject, ho, hl, need_some]
  cases hhit : lookup s.cfg.desc objid with
  | none => exact ⟨_, rfl⟩
  | some d =>
    dsimp only
    split
    · next hfit =>
      obtain ⟨pairs, hpairs, hslots⟩ := exists_extractAll s.cfg hd d.fields (by simpa [fits] using hfit)
      have hexist : pairs.all (fun p => decide (p.1 < s.cfg.nSlots)) = true := by
        simp only [List.all_eq_true, decide_eq_true_eq]
        intro p hp
        obtain ⟨f, hf, hfp⟩ := List.mem_map.1 (hslots ▸ List.mem_map_of_mem hp)
        exact hfp ▸ slot_lt_of_wellFormed hc (List.mem_of_find?_eq_some hhit) hf
      exact ⟨s.publish pairs, by rw [hpairs, need_some, execDPublish, if_pos hexist]⟩
    · exact ⟨_, rfl⟩

/-- A full header and its Data are a frame, for P.GOTCRC to emit with the Crc byte that matched (R136). -/
theorem exists_frameHeld {s : State} (hs : s.HeaderHeld)
    (hkeys : s.dbuf.map (·.1) = List.range (dlenOf s.cfg (s.fLen.getD 0))) (b : Byte) :
    ∃ f : Frame, (FrameHeld s f ∧ f.crc = b) ∧ s.dbuf.map (·.1) = List.range (dlenOf s.cfg f.length) := by
  obtain ⟨⟨htype, -⟩, ⟨hlen, -⟩, hobjid, hinstid, -⟩ := hs
  obtain ⟨type, ht⟩ := Option.isSome_iff_exists.1 htype
  obtain ⟨len, hl⟩ := Option.isSome_iff_exists.1 hlen
  obtain ⟨objid, ho⟩ := Option.isSome_iff_exists.1 hobjid
  obtain ⟨instid, hi⟩ := Option.isSome_iff_exists.1 hinstid
  rw [hl, Option.getD_some] at hkeys
  obtain ⟨data, hdata⟩ := Memory.exists_readBytes_of_keys_eq_range hkeys (a := 0) (Nat.zero_add _).le
  exact ⟨⟨type, len, objid, instid, data, b⟩, ⟨⟨ht, hl, ho, hi, hdata⟩, rfl⟩, hkeys⟩

/-! ## What keeps the invariant -/

/-- An answer that is a next state meeting the invariant. -/
def AnswersInv (r : Result) : Prop := ∃ t, r = .next t ∧ t.Inv

/-- The micro-operation pstate selects runs (R120). -/
theorem selected_of_pstate {p : PState} {s : State} (hp : s.pstate = p) (r : Result) : selected p s r = r := if_pos hp

section
variable {s : State}

/-- Accepting a byte keeps `crc` to CRC_W bits (R102). -/
theorem State.CommonInv.accept (h : s.CommonInv) (b : Byte) : (s.accept b).CommonInv := by
  obtain ⟨hcfg, hsnap, hpassive, _⟩ := h
  exact ⟨hcfg, hsnap, hpassive, crcUpdate_lt _ _ _ (crcShapeOk_of_wellFormed hcfg)⟩

/-- The return to WaitSync meets the invariant, whatever the parser held (R137, R207). -/
theorem State.CommonInv.inv_toWaitSync (h : s.CommonInv) : s.toWaitSync.Inv := by
  obtain ⟨hcfg, hsnap, hpassive, _⟩ := h
  have hinit : s.cfg.crc.init < 2 ^ s.cfg.crc.width := ((crcShapeOk_iff _).1 (crcShapeOk_of_wellFormed hcfg)).1
  exact (inv_iff _).2 ⟨⟨hcfg, hsnap, hpassive, hinit⟩, rfl, rfl, rfl, rfl, rfl, rfl, rfl⟩

/-- So does a discard, which differs from it in the output record only. -/
theorem State.CommonInv.inv_discard (h : s.CommonInv) (e : Err) : (s.discard e).Inv := h.inv_toWaitSync

/-- The end of the header meets the invariant, with Data to come or without (R131). -/
theorem State.CommonInv.inv_endHeader (h : s.CommonInv) {len : Half} (hh : s.HeaderHeld) (hl : s.fLen = some len)
    (hd : s.dbuf = []) : (s.endHeader len).Inv := by
  refine (inv_iff _).2 ⟨h, ?_⟩
  by_cases hz : dlenOf s.cfg len = 0
  · simp only [State.ParserInv, State.endHeader_pstate, if_pos hz]
    exact ⟨rfl, hh, by simp [hl, hd, hz]⟩
  · simp only [State.ParserInv, State.endHeader_pstate, if_neg hz]
    exact ⟨hh, by simpa [hl] using Nat.pos_of_ne_zero hz, by simp [hd]⟩

/-- Under a well-formed configuration a legal Length leaves at most 255 Data bytes (R25, R126). -/
theorem dlenOf_le {cfg : Config} (hc : configProblem cfg = none) {len : Half} (hl : legalLength cfg len = true) :
    dlenOf cfg len ≤ 255 := by
  simp only [legalLength, Bool.and_eq_true, decide_eq_true_eq] at hl
  unfold dlenOf
  rcases header_of_wellFormed hc with h | h <;> rw [h] at hl ⊢ <;> bv_omega

end

/-! ## The micro-operations answer, and keep the invariant -/

section
variable {s : State} (h : s.Inv) (b : Byte) (now : Time)
include h

/-- To GotSync, or no frame begun (R121, R122). -/
theorem execPWaitSync_answersInv (hp : s.pstate = .waitSync) : AnswersInv (execPWaitSync b now s) := by
  obtain ⟨hc, hs⟩ := (inv_iff s).1 h
  simp only [State.ParserInv, hp] at hs
  obtain ⟨hcrc, -, hregs⟩ := hs
  rw [execPWaitSync, selected_of_pstate hp]
  split_ifs
  · exact ⟨_, rfl, (inv_iff _).2 ⟨hcrc ▸ hc.accept b, rfl, hregs⟩⟩
  · exact ⟨_, rfl, h⟩

/-- To GotMsgType, or a discard (R123, R124). -/
theorem execPGotSync_answersInv (hp : s.pstate = .gotSync) : AnswersInv (execPGotSync b now s) := by
  obtain ⟨hc, hs⟩ := (inv_iff s).1 h
  simp only [State.ParserInv, hp] at hs
  obtain ⟨-, -, hregs⟩ := hs
  rw [execPGotSync, selected_of_pstate hp]
  split_ifs with hlegal
  · exact ⟨_, rfl, (inv_iff _).2 ⟨hc.accept b, Nat.zero_le _, ⟨rfl, hlegal⟩, by simpa using hregs⟩⟩
  · exact ⟨_, rfl, hc.inv_discard _⟩

/-- The first Length byte, or the second and the range check (R125 to R127). -/
theorem execPGotMsgType_answersInv (hp : s.pstate = .gotMsgType) : AnswersInv (execPGotMsgType b now s) := by
  obtain ⟨hc, hs⟩ := (inv_iff s).1 h
  simp only [State.ParserInv, hp] at hs
  obtain ⟨hcnt, htype, hlen, hregs⟩ := hs
  rw [execPGotMsgType, selected_of_pstate hp]
  split_ifs with h0 h1
  · refine ⟨_, rfl, (inv_iff _).2 ⟨hc.accept b, ?_⟩⟩
    simpa only [State.ParserInv, State.accept_pstate, hp] using
      ⟨by decide, htype, partialField_one_setWidth b, hregs⟩
  · obtain ⟨first, hfirst⟩ := Option.isSome_iff_exists.1 (hlen.1.trans (by simpa using h0))
    rw [hfirst, need_some]
    dsimp only
    split_ifs with hlegal
    · exact ⟨_, rfl, (inv_iff _).2 ⟨hc.accept b, Nat.zero_le _, htype, ⟨rfl, hlegal⟩, by simpa using hregs⟩⟩
    · exact ⟨_, rfl, hc.inv_discard _⟩
  · bv_omega

/-- The ObjID bytes, and the end of the header where H = 8 (R128, R129, R131). -/
theorem execPGotLength_answersInv (hp : s.pstate = .gotLength) : AnswersInv (execPGotLength b now s) := by
  obtain ⟨hc, hs⟩ := (inv_iff s).1 h
  simp only [State.ParserInv, hp] at hs
  obtain ⟨hcnt, htype, hlen, hobjid, hinstid, hdbuf⟩ := hs
  obtain ⟨objid, hasm, hlt⟩ := hobjid.exists_asmReg s.cfg.byteOrder b
  obtain ⟨len, hl⟩ := Option.isSome_iff_exists.1 hlen.1
  rw [execPGotLength, selected_of_pstate hp, if_pos hcnt, hasm, need_some]
  split_ifs with h3 h10
  · refine ⟨_, rfl, (inv_iff _).2 ⟨hc.accept b, ?_⟩⟩
    simp only [State.ParserInv, State.accept_pstate, hp]
    exact ⟨by bv_omega, htype, hlen, partialField_succ hlt (by omega), hinstid, hdbuf⟩
  · exact ⟨_, rfl, (inv_iff _).2 ⟨hc.accept b, h10, Nat.zero_le _, htype, hlen, rfl, by simpa using hinstid, hdbuf⟩⟩
  · rw [hl, need_some]
    refine ⟨_, rfl, State.CommonInv.inv_endHeader ?_ ?_ hl hdbuf⟩
    · exact hc.accept b
    · exact ⟨htype, hlen, rfl, rfl, fun _ => rfl⟩

/-- The InstID bytes and the end of the header (R130, R131). -/
theorem execPGotObjID_answersInv (hp : s.pstate = .gotObjID) : AnswersInv (execPGotObjID b now s) := by
  obtain ⟨hc, hs⟩ := (inv_iff s).1 h
  simp only [State.ParserInv, hp] at hs
  obtain ⟨h10, hcnt, htype, hlen, hobjid, hinstid, hdbuf⟩ := hs
  rw [execPGotObjID, selected_of_pstate hp]
  split_ifs with h0 h1
  · refine ⟨_, rfl, (inv_iff _).2 ⟨hc.accept b, ?_⟩⟩
    simp only [State.ParserInv, State.accept_pstate, hp]
    exact ⟨h10, by decide, htype, hlen, hobjid, partialField_one_setWidth b, hdbuf⟩
  · obtain ⟨instid, hasm, _⟩ := hinstid.exists_asmReg s.cfg.byteOrder b
    obtain ⟨len, hl⟩ := Option.isSome_iff_exists.1 hlen.1
    rw [show s.cnt.toNat = 1 from congrArg _ h1] at hasm
    rw [hasm, need_some, hl, need_some]
    refine ⟨_, rfl, State.CommonInv.inv_endHeader ?_ ?_ hl hdbuf⟩
    · exact hc.accept b
    · exact ⟨htype, hlen, hobjid, rfl, fun h8 => absurd (h8.symm.trans h10) (by decide)⟩
  · bv_omega

/-- One more Data byte, to a cell that exists (R132, R133). -/
theorem execPGotInstID_answersInv (hp : s.pstate = .gotInstID) : AnswersInv (execPGotInstID b now s) := by
  obtain ⟨hc, hs⟩ := (inv_iff s).1 h
  simp only [State.ParserInv, hp] at hs
  obtain ⟨hheader, hcnt, hkeys⟩ := hs
  obtain ⟨-, ⟨hsome, hlegal⟩, -⟩ := id hheader
  obtain ⟨len, hl⟩ := Option.isSome_iff_exists.1 hsome
  simp only [hl, Option.getD_some, Option.all_some] at hcnt hlegal
  obtain ⟨hcfg, -⟩ := id hc
  have hle := dlenOf_le hcfg hlegal
  have hwrite := Memory.keys_write_of_keys_eq_range b hkeys
  rw [execPGotInstID, selected_of_pstate hp, hl, need_some, if_pos (Nat.succ_le_of_lt hcnt),
    if_pos (hcnt.trans_le hle)]
  dsimp only
  split_ifs with hmore
  · have hsucc : (s.cnt + 1).toNat = s.cnt.toNat + 1 := by bv_omega
    refine ⟨_, rfl, (inv_iff _).2 ⟨hc.accept b, ?_⟩⟩
    simp only [State.ParserInv, State.accept_pstate, hp]
    refine ⟨hheader, ?_, hsucc ▸ hwrite⟩
    simpa only [State.accept_cfg, State.accept_fLen, hl, Option.getD_some, hsucc] using hmore
  · have hlast : dlenOf s.cfg len = s.cnt.toNat + 1 := by omega
    refine ⟨_, rfl, (inv_iff _).2 ⟨hc.accept b, rfl, hheader, ?_⟩⟩
    simpa [hl, hlast] using hwrite

/-- The dispatch step answers, and comes back to WaitSync (R136, R137). -/
theorem execPGotCrc_answersInv (hp : s.pstate = .gotData) : AnswersInv (execPGotCrc b now s.matched) := by
  obtain ⟨⟨hcfg, hsnap, hrest⟩, hs⟩ := (inv_iff s).1 h
  simp only [State.ParserInv, hp] at hs
  obtain ⟨-, hheader, hkeys⟩ := hs
  obtain ⟨f, ⟨hf, hfcrc⟩, hdlen⟩ := exists_frameHeld hheader hkeys b
  have hemit := (emitFrame_eq_next_iff b s.matched _).2 ⟨f, hf, hfcrc, rfl⟩
  obtain ⟨-, hl, ho, -, hdata⟩ := hf
  obtain ⟨s2, hdispatch⟩ := exists_dispatchObject
    (s := { s.matched with out := { s.matched.out with frame := some f } }) hcfg ho hl hdlen
  obtain ⟨snap, out, rfl, hsnap2⟩ := dispatchObject_writes hdispatch
  obtain ⟨c, l, x, out', htake⟩ := State.takeFrame_eq { s.matched with snap := snap, out := out } f.objid f.data now
  have hframe := (execCFrame_eq_next_iff now { s.matched with snap := snap, out := out } _).2
    ⟨f.objid, f.length, f.data, ho, hl, hdata, htake.symm⟩
  refine ⟨_, (execPGotCrc_eq_next_iff b now _ _).2 ⟨rfl, _, _, _, hemit, hdispatch, hframe, rfl⟩, ?_⟩
  exact State.CommonInv.inv_toWaitSync ⟨hcfg, hsnap2 hsnap, hrest⟩

/-- The Crc byte: the dispatch step, or a discard (R134, R135). -/
theorem execPGotData_answersInv (hp : s.pstate = .gotData) : AnswersInv (execPGotData b now s) := by
  rw [execPGotData, selected_of_pstate hp]
  split_ifs
  · exact execPGotCrc_answersInv h b now hp
  · exact ⟨_, rfl, ((inv_iff s).1 h).1.inv_discard _⟩

/-- A BYTE step answers a next state, which meets the invariant again (R8, R202). -/
theorem execByte_answersInv : AnswersInv (execByte b now s) := by
  unfold execByte
  cases hp : s.pstate with
  | waitSync => exact execPWaitSync_answersInv h b now hp
  | gotSync => exact execPGotSync_answersInv h b now hp
  | gotMsgType => exact execPGotMsgType_answersInv h b now hp
  | gotLength => exact execPGotLength_answersInv h b now hp
  | gotObjID => exact execPGotObjID_answersInv h b now hp
  | gotInstID => exact execPGotInstID_answersInv h b now hp
  | gotData => exact execPGotData_answersInv h b now hp
  | gotCrc =>
    obtain ⟨-, hnot, -⟩ := h
    exact absurd hp hnot

/-- The BYTE steps of a READ all answer (R91). -/
theorem feedBytes_answersInv (bytes : List Byte) : ∃ t outs, feedBytes now bytes s = .next (t, outs) ∧ t.Inv := by
  induction bytes generalizing s with
  | nil => exact ⟨s, [], rfl, h⟩
  | cons b bs ih =>
    obtain ⟨t, hbyte, ht⟩ := execByte_answersInv h b now
    obtain ⟨u, outs, hfeed, hu⟩ := ih ht
    exact ⟨u, _, (feedBytes_cons_eq_next_iff now b bs s _).2 ⟨t, u, outs, hbyte, hfeed, rfl⟩, hu⟩

end

/-- Settles O56: NOP, TICK, QUERY and RESET always answer; a BYTE answers and keeps the invariant, so a READ's bytes do. -/
theorem noEventStops : Obligations.NoEventStops := by
  unfold Obligations.NoEventStops
  intro i s h hi
  cases i with
  | nop => exact ⟨_, rfl⟩
  | byte b now =>
    obtain ⟨t, ht, -⟩ := execByte_answersInv h b now
    exact ⟨t, ht⟩
  | tick now => exact ⟨_, rfl⟩
  | query => exact ⟨_, rfl⟩
  | reset => exact ⟨_, rfl⟩
  | read bytes now =>
    obtain ⟨t, outs, hfeed, -⟩ := feedBytes_answersInv h now bytes
    exact ⟨_, (execRead_eq_next_iff bytes now s _).2 ⟨t, outs, _, hfeed, rfl, rfl⟩⟩
  | _ => cases hi

end Sys2Proof.Machine

namespace Sys2Proof.Machine

/-! ## What each instruction does, by its kind (00_scope.md R6, 30_encoding.md R71, R80, R82) -/

/-- A step that answers a next state has nothing to deliver, or performs the instruction that the oldest stimulus encodes,
which is no sub-operation (R6, R7, R220). -/
theorem step_eq_next_cases {s t : State} (h : step s = .next t) :
    t = s.beginStep ∨ ∃ i rest, isSubOp i = false ∧ exec i { s with input := rest } = .next t := by
  unfold step at h
  cases hc : configProblem s.cfg with simp only [hc] at h
  | some p => cases h
  | none =>
    cases hq : s.input with simp only [fetch, hq] at h
    | nil => cases h; exact .inl rfl
    | cons p rest =>
      cases hd : decode s.cfg p with simp only [hd] at h
      | rejected e => cases h
      | ok i => exact .inr ⟨i, rest, decoderNeverGivesSubOperation _ _ _ hd, h⟩

/-- A byte step is the BYTE of some byte, or P.GOTCRC run by itself (R71, R80, R120). -/
theorem byteStep_cases {i : Instr} {s t : State} (hi : isByteStep i = true) (h : exec i s = .next t) :
    (∃ b now, execByte b now s = .next t) ∨ ∃ b now, execPGotCrc b now s = .next t := by
  cases i with
  | byte b now | msgIllegal b now => exact .inl ⟨b, now, h⟩
  | msgObj now | msgObjReq now | msgObjAck now | msgAck now | msgNack now | sync now => exact .inl ⟨_, now, h⟩
  | pWaitSync b now | pGotSync b now | pGotMsgType b now | pGotLength b now | pGotObjID b now | pGotInstID b now
  | pGotData b now =>
    simp only [exec] at h
    exact .inl ⟨b, now, (execByte_eq_next_iff b now s t).2 (by simp only [h, true_or, or_true])⟩
  | pGotCrc b now => exact .inr ⟨b, now, h⟩
  | _ => cases hi

/-- An instruction that is neither a byte step nor a sub-operation, and answers, is NOP, TICK, QUERY, RESET or READ. -/
theorem exec_eq_next_of_event {i : Instr} {s t : State} (hbyte : isByteStep i = false) (hsub : isSubOp i = false)
    (h : exec i s = .next t) :
    (i = .nop ∧ t = s.beginStep) ∨ (∃ now, i = .tick now ∧ execTick now s = .next t) ∨
    (i = .query ∧ t = { s with out := { query := some (s.pstate, s.cstate) }, res := .nothing }) ∨
    (i = .reset ∧ t = s.resetAll) ∨ ∃ bytes now, i = .read bytes now ∧ execRead bytes now s = .next t := by
  cases i with
  | nop => cases h; exact .inl ⟨rfl, rfl⟩
  | tick now => exact .inr (.inl ⟨now, rfl, h⟩)
  | query => cases h; exact .inr (.inr (.inl ⟨rfl, rfl⟩))
  | reset => cases h; exact .inr (.inr (.inr (.inl ⟨rfl, rfl⟩)))
  | read bytes now => exact .inr (.inr (.inr (.inr ⟨bytes, now, rfl, h⟩)))
  | illegalOp5 | illegalOp6 | illegalOp7 => cases h
  | _ => simp only [isByteStep, isSubOp, reduceCtorEq] at hbyte hsub

/-! ## What TICK and the sub-operations write (R42) -/

/-- C.TIMEOUT writes only cstate and the output record (R181). -/
theorem State.checkTimeout_eq (s : State) (now : Time) :
    ∃ c out, s.checkTimeout now = { s with cstate := c, out := out } := by
  rcases s.checkTimeout_cases now with h | ⟨_, h⟩
  · exact ⟨_, _, h⟩
  · exact ⟨_, _, h⟩

/-- C.PERIOD writes only t_tx and the output record (R183). -/
theorem State.checkPeriod_eq (s : State) (now : Time) :
    ∃ x out, s.checkPeriod now = { s with tTx := x, out := out } := by
  rcases s.checkPeriod_cases now with h | ⟨_, h⟩
  · exact ⟨_, _, h⟩
  · exact ⟨_, _, h⟩

/-- TICK writes only cstate, t_tx and the model's own records (R180). -/
theorem execTick_writes {now : Time} {s t : State} (h : execTick now s = .next t) :
    ∃ c x out, t = { s with cstate := c, tTx := x, out := out, res := .nothing } := by
  obtain ⟨c, out, htimeout⟩ := s.beginStep.checkTimeout_eq now
  obtain ⟨x, out', hperiod⟩ := State.checkPeriod_eq { s.beginStep with cstate := c, out := out } now
  have ht : (s.beginStep.checkTimeout now).checkPeriod now = t := Host.Outcome.next.inj h
  exact ⟨c, x, out', by rw [← ht, htimeout, hperiod]; rfl⟩

/-- The operations of the Connection State Machine (R173, R180). -/
abbrev IsConnectionOp (i : Instr) : Prop :=
  (∃ now, i = .cFrame now) ∨ (∃ ps now, i = .cStats ps now) ∨ (∃ now, i = .cTimeout now) ∨ ∃ now, i = .cPeriod now

/-- A sub-operation writes what its component owns and the model's own records: `crc`, the snapshot, the registers of the
Connection State Machine, or nothing else. -/
theorem subOp_writes {i : Instr} {s t : State} (hi : isSubOp i = true) (h : exec i s = .next t) :
    ((i = .crcInit ∨ ∃ b, i = .crcUpd b) ∧ ∃ c, t = { s with crc := c }) ∨
    ((∃ ps, i = .dPublish ps) ∧ ∃ snap out, t = { s with snap := snap, out := out }) ∨
    (IsConnectionOp i ∧ ∃ c l x out, t = { s with cstate := c, tLast := l, tTx := x, out := out }) ∨
    ∃ out res, t = { s with out := out, res := res } := by
  cases i with
  | crcInit => cases h; exact .inl ⟨.inl rfl, _, rfl⟩
  | crcUpd b => cases h; exact .inl ⟨.inr ⟨b, rfl⟩, _, rfl⟩
  | crcFin => cases h; exact .inr (.inr (.inr ⟨_, _, rfl⟩))
  | dLookup =>
    simp only [exec, execDLookup, need_eq_next_iff] at h
    obtain ⟨objid, -, len, -, h⟩ := h
    cases h
    obtain ⟨out, hout⟩ := s.noteLookup_eq (lookup s.cfg.desc objid) (dlenOf s.cfg len)
    exact .inr (.inr (.inr ⟨out, _, by rw [hout]; rfl⟩))
  | dExtract f =>
    simp only [exec, execDExtract, need_eq_next_iff] at h
    obtain ⟨v, -, h⟩ := h
    cases h
    exact .inr (.inr (.inr ⟨_, _, rfl⟩))
  | dPublish ps =>
    simp only [exec, execDPublish] at h
    split at h <;> cases h
    exact .inr (.inl ⟨⟨ps, rfl⟩, _, _, rfl⟩)
  | cFrame now =>
    obtain ⟨objid, len, data, -, -, -, rfl⟩ := (execCFrame_eq_next_iff now s t).1 h
    exact .inr (.inr (.inl ⟨.inl ⟨now, rfl⟩, s.takeFrame_eq objid data now⟩))
  | cStats ps now =>
    cases h
    exact .inr (.inr (.inl ⟨.inr (.inl ⟨ps, now, rfl⟩), s.takeStats_eq ps now⟩))
  | cTimeout now =>
    cases h
    obtain ⟨c, out, hc⟩ := s.checkTimeout_eq now
    exact .inr (.inr (.inl ⟨.inr (.inr (.inl ⟨now, rfl⟩)), c, _, _, out, hc⟩))
  | cPeriod now =>
    cases h
    obtain ⟨x, out, hx⟩ := s.checkPeriod_eq now
    exact .inr (.inr (.inl ⟨.inr (.inr (.inr ⟨now, rfl⟩)), _, _, x, out, hx⟩))
  | _ => cases hi

/-! ## What a byte step writes (R42) -/

/-- What the Frame Parser does not own: the state with the parser registers as in WaitSync, the Data buffer empty, and none
of the model's own records. -/
def State.exceptParser (s : State) : State := { s.toWaitSync with out := {}, res := .nothing }

/-- States that agree in all the parser does not own agree in control, snapshot and connection. -/
theorem State.exceptParser_eq_iff (s t : State) :
    t.exceptParser = s.exceptParser ↔ SameControl s t ∧ t.snap = s.snap ∧ SameConn s t := by
  simp only [State.exceptParser, State.toWaitSync, State.mk.injEq]
  grind

/-- What a dispatch step leaves alone and reports: control is kept, a frame is emitted, and cstate and t_last are kept but for
a valid stats frame (R42). -/
structure DispatchWrites (s t : State) : Prop where
  control : SameControl s t
  frame : t.out.frame.isSome = true
  conn : t.out.stats.isSome = true ∨ t.cstate = s.cstate ∧ t.tLast = s.tLast

/-- D.LOOKUP keeps the emitted frame. -/
@[simp] theorem State.noteLookup_frame (s : State) (hit : Option Descriptor) (n : Nat) :
    (s.noteLookup hit n).out.frame = s.out.frame := by
  unfold State.noteLookup
  cases hit with
  | none => rfl
  | some d => dsimp only; split_ifs <;> rfl

/-- The dispatcher keeps the emitted frame. -/
theorem dispatchObject_frame {s t : State} (h : dispatchObject s = .next t) : t.out.frame = s.out.frame := by
  obtain ⟨_, _, _, _, ⟨_, rfl⟩ | ⟨_, _, ⟨_, rfl⟩ | ⟨_, _, _, _, rfl⟩⟩⟩ := dispatchObject_cases s t h
  · exact s.noteLookup_frame _ _
  · exact s.noteLookup_frame _ _
  · rfl

/-- C.STATS reports the peer status and keeps the emitted frame (R176). -/
theorem State.takeStats_out (s : State) (ps : Byte) (now : Time) :
    (s.takeStats ps now).out.stats = some ps ∧ (s.takeStats ps now).out.frame = s.out.frame := by
  rcases s.takeStats_cases ps now with ⟨_, h⟩ | ⟨_, _, h⟩ | ⟨_, _, h⟩
  · exact h ▸ ⟨rfl, rfl⟩
  · exact h ▸ ⟨rfl, rfl⟩
  · exact h ▸ ⟨rfl, rfl⟩

/-- C.FRAME keeps the emitted frame. -/
theorem State.takeFrame_frame (s : State) (objid : Word) (data : List Byte) (now : Time) :
    (s.takeFrame objid data now).out.frame = s.out.frame := by
  rcases s.takeFrame_cases objid data now with ⟨_, h⟩ | ⟨ps, _, h⟩
  · rw [h]
  · rw [h, (State.takeStats_out _ ps now).2]

/-- C.FRAME moves neither cstate nor t_last but by a valid stats frame (R173, R174). -/
theorem State.takeFrame_conn (s : State) (objid : Word) (data : List Byte) (now : Time) :
    (s.takeFrame objid data now).out.stats.isSome = true ∨
      (s.takeFrame objid data now).cstate = s.cstate ∧ (s.takeFrame objid data now).tLast = s.tLast := by
  rcases s.takeFrame_cases objid data now with ⟨_, h⟩ | ⟨ps, _, h⟩
  · rw [h]; exact .inr ⟨rfl, rfl⟩
  · rw [h, (State.takeStats_out _ ps now).1]; exact .inl rfl

/-- The dispatch step emits its frame, and then moves the connection by C.FRAME only (R136, R137). -/
theorem execPGotCrc_writes {b : Byte} {now : Time} {s t : State} (h : execPGotCrc b now s = .next t) :
    DispatchWrites s t := by
  obtain ⟨-, s1, s2, s3, hemit, hdispatch, hframe, rfl⟩ := (execPGotCrc_eq_next_iff b now s t).1 h
  obtain ⟨f, -, -, rfl⟩ := (emitFrame_eq_next_iff b s s1).1 hemit
  have hkept := dispatchObject_frame hdispatch
  obtain ⟨snap, out, rfl, -⟩ := dispatchObject_writes hdispatch
  obtain ⟨objid, len, data, -, -, -, rfl⟩ := (execCFrame_eq_next_iff now _ s3).1 hframe
  refine ⟨?_, ?_, State.takeFrame_conn _ objid data now⟩
  · obtain ⟨c, l, x, out', htake⟩ := State.takeFrame_eq { s with snap := snap, out := out } objid data now
    exact htake ▸ ⟨rfl, rfl, rfl⟩
  · rw [State.toWaitSync_out, State.takeFrame_frame, hkept]
    rfl

section
variable {b : Byte} {now : Time} {s t : State}

/-- P.WAITSYNC writes only what the parser owns. -/
theorem execPWaitSync_exceptParser (h : execPWaitSync b now s = .next t) : t.exceptParser = s.exceptParser := by
  obtain ⟨-, h⟩ := (selected_eq_next_iff _ _ _ _).1 h
  split_ifs at h <;> (cases h; rfl)

/-- P.GOTSYNC writes only what the parser owns. -/
theorem execPGotSync_exceptParser (h : execPGotSync b now s = .next t) : t.exceptParser = s.exceptParser := by
  obtain ⟨-, h⟩ := (selected_eq_next_iff _ _ _ _).1 h
  split_ifs at h <;> (cases h; rfl)

/-- P.GOTMSGTYPE writes only what the parser owns. -/
theorem execPGotMsgType_exceptParser (h : execPGotMsgType b now s = .next t) : t.exceptParser = s.exceptParser := by
  obtain ⟨-, h⟩ := (selected_eq_next_iff _ _ _ _).1 h
  split_ifs at h
  · cases h; rfl
  · obtain ⟨first, -, h⟩ := (need_eq_next_iff _ _ _ _).1 h
    dsimp only at h
    split_ifs at h <;> (cases h; rfl)

/-- P.GOTLENGTH writes only what the parser owns. -/
theorem execPGotLength_exceptParser (h : execPGotLength b now s = .next t) : t.exceptParser = s.exceptParser := by
  obtain ⟨-, h⟩ := (selected_eq_next_iff _ _ _ _).1 h
  split_ifs at h
  · obtain ⟨objid, -, h⟩ := (need_eq_next_iff _ _ _ _).1 h
    cases h; rfl
  · obtain ⟨objid, -, h⟩ := (need_eq_next_iff _ _ _ _).1 h
    cases h; rfl
  · obtain ⟨objid, -, h⟩ := (need_eq_next_iff _ _ _ _).1 h
    obtain ⟨len, -, h⟩ := (need_eq_next_iff _ _ _ _).1 h
    cases h; rfl

/-- P.GOTOBJID writes only what the parser owns. -/
theorem execPGotObjID_exceptParser (h : execPGotObjID b now s = .next t) : t.exceptParser = s.exceptParser := by
  obtain ⟨-, h⟩ := (selected_eq_next_iff _ _ _ _).1 h
  split_ifs at h
  · cases h; rfl
  · obtain ⟨instid, -, h⟩ := (need_eq_next_iff _ _ _ _).1 h
    obtain ⟨len, -, h⟩ := (need_eq_next_iff _ _ _ _).1 h
    cases h; rfl

/-- P.GOTINSTID writes only what the parser owns. -/
theorem execPGotInstID_exceptParser (h : execPGotInstID b now s = .next t) : t.exceptParser = s.exceptParser := by
  obtain ⟨-, h⟩ := (selected_eq_next_iff _ _ _ _).1 h
  obtain ⟨len, -, h⟩ := (need_eq_next_iff _ _ _ _).1 h
  dsimp only at h
  split_ifs at h <;> (cases h; rfl)

/-- P.GOTDATA discards, or is the dispatch step (R134, R135). -/
theorem execPGotData_writes (h : execPGotData b now s = .next t) :
    t.exceptParser = s.exceptParser ∨ DispatchWrites s t := by
  obtain ⟨-, h⟩ := (selected_eq_next_iff _ _ _ _).1 h
  split_ifs at h
  · obtain ⟨hcontrol, hframe, hconn⟩ := execPGotCrc_writes h
    exact .inr ⟨hcontrol, hframe, hconn⟩
  · cases h
    exact .inl rfl

/-- A BYTE step writes only what the parser owns, or is a dispatch step. -/
theorem execByte_writes (h : execByte b now s = .next t) : t.exceptParser = s.exceptParser ∨ DispatchWrites s t := by
  rcases (execByte_eq_next_iff b now s t).1 h with h | h | h | h | h | h | h
  · exact .inl (execPWaitSync_exceptParser h)
  · exact .inl (execPGotSync_exceptParser h)
  · exact .inl (execPGotMsgType_exceptParser h)
  · exact .inl (execPGotLength_exceptParser h)
  · exact .inl (execPGotObjID_exceptParser h)
  · exact .inl (execPGotInstID_exceptParser h)
  · exact execPGotData_writes h

/-- The same of every row that one BYTE event performs. -/
theorem byteStep_writes {i : Instr} (hi : isByteStep i = true) (h : exec i s = .next t) :
    t.exceptParser = s.exceptParser ∨ DispatchWrites s t := by
  rcases byteStep_cases hi h with ⟨b, now, hb⟩ | ⟨b, now, hb⟩
  · exact execByte_writes hb
  · exact .inr (execPGotCrc_writes hb)

end

/-! ## The state after reset (R40, R41) -/

/-- Under a well-formed configuration the state after RESET meets the invariant. -/
theorem inv_initial {cfg : Config} (h : configProblem cfg = none) : (State.initial cfg).Inv := by
  have hcommon : (State.initial cfg).CommonInv :=
    ⟨h, ⟨rfl, by simp [State.initial]⟩, rfl, ((crcShapeOk_iff _).1 (crcShapeOk_of_wellFormed h)).1⟩
  exact hcommon.inv_toWaitSync

/-- The default configuration is well formed, whatever its open values are (R11, R12). -/
theorem configProblem_default : configProblem Config.default = none := by decide

/-- Settles O53: the state after RESET meets the invariant under every well-formed configuration, the default one among
them, and no byte has been folded. -/
theorem resetStateMeetsTheInvariants : Obligations.ResetStateMeetsTheInvariants := by
  unfold Obligations.ResetStateMeetsTheInvariants
  exact ⟨inv_initial configProblem_default, rfl⟩

/-! ## Every step keeps the invariant (R41) -/

section
variable {s t : State} (hs : s.Inv)
include hs

/-- TICK keeps the invariant, which speaks of nothing it writes. -/
theorem execTick_inv {now : Time} (h : execTick now s = .next t) : t.Inv := by
  obtain ⟨c, x, out, rfl⟩ := execTick_writes h
  exact hs

/-- A byte step keeps the invariant: BYTE does, and the invariant does not let P.GOTCRC be selected. -/
theorem byteStep_inv {i : Instr} (hi : isByteStep i = true) (h : exec i s = .next t) : t.Inv := by
  rcases byteStep_cases hi h with ⟨b, now, hb⟩ | ⟨b, now, hb⟩
  · obtain ⟨u, hu, hinv⟩ := execByte_answersInv hs b now
    cases hb.symm.trans hu
    exact hinv
  · obtain ⟨hp, -⟩ := (execPGotCrc_eq_next_iff b now s t).1 hb
    obtain ⟨-, hnot, -⟩ := hs
    exact absurd hp hnot

/-- READ keeps the invariant: its bytes do, and so does its TICK. -/
theorem execRead_inv {bytes : List Byte} {now : Time} (h : execRead bytes now s = .next t) : t.Inv := by
  obtain ⟨u, outs, v, hfeed, htick, rfl⟩ := (execRead_eq_next_iff bytes now s t).1 h
  obtain ⟨w, outs', hfeed', hw⟩ := feedBytes_answersInv hs now bytes
  cases hfeed.symm.trans hfeed'
  have hv : v.Inv := execTick_inv hw htick
  exact hv

/-- Every instruction but a sub-operation keeps the invariant. -/
theorem exec_inv {i : Instr} (hi : isSubOp i = false) (h : exec i s = .next t) : t.Inv := by
  cases hbyte : isByteStep i with
  | true => exact byteStep_inv hs hbyte h
  | false =>
    rcases exec_eq_next_of_event hbyte hi h with
      ⟨-, rfl⟩ | ⟨now, -, htick⟩ | ⟨-, rfl⟩ | ⟨-, rfl⟩ | ⟨bytes, now, -, hread⟩
    · exact hs
    · exact execTick_inv hs htick
    · exact hs
    · obtain ⟨hcfg, -⟩ := hs
      exact inv_initial hcfg
    · exact execRead_inv hs hread

end

/-- Settles O54: an idle step writes no item the invariant speaks of, and what the decoder gives is no sub-operation. -/
theorem stepKeepsTheInvariant : Obligations.StepKeepsTheInvariant := by
  unfold Obligations.StepKeepsTheInvariant
  intro s t hs h
  rcases step_eq_next_cases h with rfl | ⟨i, rest, hi, hexec⟩
  · exact hs
  · have hrest : State.Inv { s with input := rest } := hs
    exact exec_inv hrest hi hexec

/-! ## The configuration, the passive flag and the queue (R34, R36) -/

/-- A byte step writes none of the three, dispatch step or not. -/
theorem sameControl_of_byteWrites {s t : State} (h : t.exceptParser = s.exceptParser ∨ DispatchWrites s t) :
    SameControl s t := by
  rcases h with h | h
  · exact ((State.exceptParser_eq_iff s t).1 h).1
  · exact h.control

/-- TICK writes none of the three. -/
theorem execTick_sameControl {now : Time} {s t : State} (h : execTick now s = .next t) : SameControl s t := by
  obtain ⟨c, x, out, rfl⟩ := execTick_writes h
  exact ⟨rfl, rfl, rfl⟩

/-- What each of two steps leaves alone, both do. -/
theorem SameControl.trans {s t u : State} (hst : SameControl s t) (htu : SameControl t u) : SameControl s u := by
  obtain ⟨hcfg, hpassive, hinput⟩ := hst
  obtain ⟨hcfg', hpassive', hinput'⟩ := htu
  exact ⟨hcfg'.trans hcfg, hpassive'.trans hpassive, hinput'.trans hinput⟩

/-- Any number of BYTE steps writes none of the three. -/
theorem feedBytes_sameControl {now : Time} {bytes : List Byte} {s t : State} {outs : List Output}
    (h : feedBytes now bytes s = .next (t, outs)) : SameControl s t := by
  induction bytes generalizing s outs with
  | nil => cases h; exact ⟨rfl, rfl, rfl⟩
  | cons b bs ih =>
    obtain ⟨u, v, outs', hbyte, hfeed, heq⟩ := (feedBytes_cons_eq_next_iff now b bs s _).1 h
    cases heq
    exact (sameControl_of_byteWrites (execByte_writes hbyte)).trans (ih hfeed)

/-- READ writes none of the three. -/
theorem execRead_sameControl {bytes : List Byte} {now : Time} {s t : State} (h : execRead bytes now s = .next t) :
    SameControl s t := by
  obtain ⟨u, outs, v, hfeed, htick, rfl⟩ := (execRead_eq_next_iff bytes now s t).1 h
  have hv : SameControl u v := execTick_sameControl htick
  exact (feedBytes_sameControl hfeed).trans hv

/-- A sub-operation writes none of the three. -/
theorem subOp_sameControl {i : Instr} {s t : State} (hi : isSubOp i = true) (h : exec i s = .next t) :
    SameControl s t := by
  obtain ⟨-, _, rfl⟩ | ⟨-, _, _, rfl⟩ | ⟨-, _, _, _, _, rfl⟩ | ⟨_, _, rfl⟩ := subOp_writes hi h
  all_goals exact ⟨rfl, rfl, rfl⟩

/-- Every instruction but RESET leaves the configuration, the passive flag and the queue. -/
theorem exec_sameControl {i : Instr} {s t : State} (hi : i ≠ .reset) (h : exec i s = .next t) : SameControl s t := by
  cases hbyte : isByteStep i with
  | true => exact sameControl_of_byteWrites (byteStep_writes hbyte h)
  | false =>
    cases hsub : isSubOp i with
    | true => exact subOp_sameControl hsub h
    | false =>
      rcases exec_eq_next_of_event hbyte hsub h with
        ⟨-, rfl⟩ | ⟨now, -, htick⟩ | ⟨-, rfl⟩ | ⟨hreset, -⟩ | ⟨bytes, now, -, hread⟩
      · exact ⟨rfl, rfl, rfl⟩
      · exact execTick_sameControl htick
      · exact ⟨rfl, rfl, rfl⟩
      · exact absurd hreset hi
      · exact execRead_sameControl hread

/-- Settles O57: RESET by its definition, every other instruction by `exec_sameControl`. -/
theorem configurationIsReadOnly : Obligations.ConfigurationIsReadOnly := by
  unfold Obligations.ConfigurationIsReadOnly
  intro i s t h
  by_cases hreset : i = .reset
  · subst hreset
    cases h
    exact ⟨rfl, rfl, fun hne => absurd rfl hne, nofun⟩
  · obtain ⟨hcfg, hpassive, hinput⟩ := exec_sameControl hreset h
    exact ⟨hcfg, hinput, fun _ => hpassive, by rintro rfl; cases h; rfl⟩

/-! ## Each component writes what it owns (R42) -/

/-- A byte step that emits no frame writes neither the snapshot nor the Connection State Machine. -/
theorem sameSnap_sameConn_of_no_frame {i : Instr} {s t : State} (hi : isByteStep i = true) (h : exec i s = .next t)
    (hframe : t.out.frame = none) : SameSnap s t ∧ SameConn s t := by
  rcases byteStep_writes hi h with hparser | hdispatch
  · obtain ⟨-, hsnap, hconn⟩ := (State.exceptParser_eq_iff s t).1 hparser
    exact ⟨fun a => by rw [hsnap], hconn⟩
  · simpa [hframe] using hdispatch.frame

/-- A byte step that changes cstate or t_last reports a valid stats frame. -/
theorem stats_isSome_of_conn_changed {i : Instr} {s t : State} (hi : isByteStep i = true) (h : exec i s = .next t)
    (hne : t.cstate ≠ s.cstate ∨ t.tLast ≠ s.tLast) : t.out.stats.isSome = true := by
  rcases byteStep_writes hi h with hparser | hdispatch
  · obtain ⟨-, -, hcstate, hlast, -⟩ := (State.exceptParser_eq_iff s t).1 hparser
    exact absurd hlast (hne.resolve_left (absurd hcstate ·))
  · refine hdispatch.conn.resolve_right ?_
    rintro ⟨hcstate, hlast⟩
    exact hne.elim (· hcstate) (· hlast)

/-- A sub-operation writes no parser register but `crc`, and no Data cell. -/
theorem subOp_keepsFrame {i : Instr} {s t : State} (hi : isSubOp i = true) (h : exec i s = .next t) :
    SameRegs { s with crc := t.crc } t ∧ SameData s t := by
  obtain ⟨-, _, rfl⟩ | ⟨-, _, _, rfl⟩ | ⟨-, _, _, _, _, rfl⟩ | ⟨_, _, rfl⟩ := subOp_writes hi h
  all_goals exact ⟨⟨rfl, rfl, rfl, rfl, rfl, rfl, rfl⟩, fun _ => rfl⟩

/-- A sub-operation that changes `crc`, the snapshot or the connection belongs to the component that owns it. -/
theorem subOp_owns {i : Instr} {s t : State} (hi : isSubOp i = true) (h : exec i s = .next t) :
    (t.crc ≠ s.crc → i = .crcInit ∨ ∃ b, i = .crcUpd b) ∧ (¬SameSnap s t → ∃ ps, i = .dPublish ps) ∧
      (¬SameConn s t → IsConnectionOp i) := by
  obtain ⟨hcrc, _, rfl⟩ | ⟨hpub, _, _, rfl⟩ | ⟨hconn, _, _, _, _, rfl⟩ | ⟨_, _, rfl⟩ := subOp_writes hi h
  · exact ⟨fun _ => hcrc, absurd fun _ => rfl, absurd ⟨rfl, rfl, rfl⟩⟩
  · exact ⟨absurd rfl, fun _ => hpub, absurd ⟨rfl, rfl, rfl⟩⟩
  · exact ⟨absurd rfl, absurd fun _ => rfl, fun _ => hconn⟩
  · exact ⟨absurd rfl, absurd fun _ => rfl, absurd ⟨rfl, rfl, rfl⟩⟩

/-- Settles O58: the clauses are the frame conditions of byte steps, TICK, QUERY and NOP, and sub-operations above. -/
theorem componentsOwnTheirState : Obligations.ComponentsOwnTheirState := by
  unfold Obligations.ComponentsOwnTheirState
  intro i s t h
  refine ⟨fun hi => sameSnap_sameConn_of_no_frame hi h, fun hi => stats_isSome_of_conn_changed hi h, ?_, ?_, fun hi => ?_⟩
  · rintro now rfl
    obtain ⟨c, x, out, rfl⟩ := execTick_writes h
    exact ⟨⟨rfl, rfl, rfl, rfl, rfl, rfl, rfl⟩, fun _ => rfl, fun _ => rfl, rfl⟩
  · rintro (rfl | rfl)
    all_goals
      cases h
      exact ⟨⟨rfl, rfl, rfl, rfl, rfl, rfl, rfl⟩, fun _ => rfl, fun _ => rfl, rfl, rfl, rfl⟩
  · obtain ⟨hregs, hdata⟩ := subOp_keepsFrame hi h
    exact ⟨hregs, hdata, subOp_owns hi h⟩

end Sys2Proof.Machine

namespace Sys2Proof.Machine

/-! ## A field read is a bit slice of the buffer (20_memory.md R52, R53) -/

/-- A range inside bytes that were read is read as that slice of them. -/
theorem Memory.readBytes_slice {m : Memory Byte} {c len a n : Nat} {data : List Byte}
    (h : Memory.readBytes m c len = some data) (hfit : a + n ≤ len) :
    Memory.readBytes m (c + a) n = some ((data.drop a).take n) := by
  have hread : ∀ k < len, Memory.read m (c + k) = data[k]? := Memory.readBytes_getElem m c len data h
  have hlen : data.length = len := Memory.readBytes_length m c len data h
  have hsome : (Memory.readBytes m (c + a) n).isSome = true := by
    rw [Memory.readBytes_isSome_iff]
    intro k hk
    rw [Nat.add_assoc, hread (a + k) (by omega), List.getElem?_eq_getElem (by omega), Option.isSome_some]
  obtain ⟨bs, hbs⟩ := Option.isSome_iff_exists.1 hsome
  rw [hbs, Option.some_inj]
  have hbsLen : bs.length = n := Memory.readBytes_length m (c + a) n bs hbs
  refine List.ext_getElem? fun k => ?_
  by_cases hk : k < n
  · rw [← Memory.readBytes_getElem m (c + a) n bs hbs k hk, Nat.add_assoc, hread (a + k) (by omega),
      List.getElem?_take_of_lt hk, List.getElem?_drop]
  · rw [List.getElem?_eq_none (by omega), List.getElem?_eq_none (by simp; omega)]

/-- The number of a byte list has the bytes as its digits to the base 2^8, least significant first (R52). -/
theorem asmLe_eq_ofDigits (bs : List Byte) : asmLe bs = Nat.ofDigits (2 ^ 8) (bs.map (·.toNat)) := by
  induction bs with
  | nil => rfl
  | cons b bs ih => rw [asmLe, ih, List.map_cons, Nat.ofDigits_cons]; rfl

/-- A byte is a digit to the base 2^8. -/
theorem lt_of_mem_map_toNat (bs : List Byte) : ∀ d ∈ bs.map (·.toNat), d < 2 ^ 8 :=
  List.forall_mem_map.2 fun b _ => b.isLt

/-- Without its first `a` bytes a byte list has the bits of its number from 8a on. -/
theorem asmLe_drop (bs : List Byte) (a : Nat) : asmLe (bs.drop a) = asmLe bs / 2 ^ (8 * a) := by
  rw [asmLe_eq_ofDigits, asmLe_eq_ofDigits, List.map_drop, Nat.pow_mul,
    Nat.ofDigits_div_pow_eq_ofDigits_drop a (by decide) _ (lt_of_mem_map_toNat bs)]

/-- The first `n` bytes of a byte list have the low 8n bits of its number. -/
theorem asmLe_take (bs : List Byte) (n : Nat) : asmLe (bs.take n) = asmLe bs % 2 ^ (8 * n) := by
  rw [asmLe_eq_ofDigits, asmLe_eq_ofDigits, List.map_take, Nat.pow_mul,
    Nat.ofDigits_mod_pow_eq_ofDigits_take n (by decide) _ (lt_of_mem_map_toNat bs)]

/-- BE reads the reversed bytes as LE reads the bytes (R52). -/
theorem asm_be_reverse (bs : List Byte) : asm .be bs.reverse = asm .le bs := by
  simp only [asm, List.reverse_reverse]

/-- Settles O41: the bytes read are a slice of the buffer's, and a slice of the digits is a slice of the bits. -/
theorem fieldReadIsABitSlice : Obligations.FieldReadIsABitSlice := by
  unfold Obligations.FieldReadIsABitSlice
  intro m dlen a n data hdata hfit
  have hread : Memory.readBytes m a n = some ((data.drop a).take n) := by
    simpa using Memory.readBytes_slice hdata hfit
  have hslice : asm .le ((data.drop a).take n) = asm .le data / 2 ^ (8 * a) % 2 ^ (8 * n) := by
    simp only [asm, asmLe_take, asmLe_drop]
  exact ⟨_, hread, hslice, (asm_be_reverse _).trans hslice⟩

end Sys2Proof.Machine

namespace Sys2Proof.Machine

/-! ## The decoder on what the encoder makes (30_encoding.md R71, R80, R83, R91) -/

/-- The four bytes of a time give the time back. -/
theorem timeOf_timeBytes (now : Time) :
    timeOf (now.extractLsb' 0 8) (now.extractLsb' 8 8) (now.extractLsb' 16 8) (now.extractLsb' 24 8) = now := by
  have h16 := BitVec.extractLsb'_append_extractLsb'_eq_extractLsb' (x := now) (len₂ := 8) (show 24 = 16 + 8 from rfl)
  have h8 := BitVec.extractLsb'_append_extractLsb'_eq_extractLsb' (x := now) (len₂ := 16) (show 16 = 8 + 8 from rfl)
  have h0 := BitVec.extractLsb'_append_extractLsb'_eq_extractLsb' (x := now) (len₂ := 24) (show 8 = 0 + 8 from rfl)
  rw [timeOf, h16, h8, h0]
  exact BitVec.extractLsb'_eq_self

/-- A 3-bit code in a byte is read back: the five bits above it are 0 (R83, R84). -/
@[simp] theorem opOf_setWidth (op : BitVec 3) : opOf (op.setWidth 8) = some op := by
  decide +revert

/-- An event word decodes to the event of its op (R83). -/
theorem decodeEvent_eventBytes (op : BitVec 3) (b : Byte) (now : Time) :
    decodeEvent (eventBytes op b now) = .ok (eventOfOp op b now) := by
  simp only [eventBytes, timeBytes, List.cons_append, List.nil_append, decodeEvent, opOf_setWidth, timeOf_timeBytes]

/-- The TICK word alone is a READ of no bytes (R91). -/
theorem decodeRead_tickWord (now : Time) : decodeRead (eventBytes 2 0 now) = .ok (.read [] now) := by
  have h : decodeEvent (eventBytes 2 0 now) = .ok (.tick now) := decodeEvent_eventBytes 2 0 now
  exact decodeRead.eq_1 _ _ _ _ _ _ _ h

/-- A BYTE word in front of a READ of the same time is one more byte in front (R91). -/
theorem decodeRead_byteWord_append {rest cs : List Byte} {now : Time} (b : Byte)
    (hrest : decodeRead rest = .ok (.read cs now)) :
    decodeRead (eventBytes 1 b now ++ rest) = .ok (.read (b :: cs) now) := by
  have h : decodeEvent (eventBytes 1 b now) = .ok (.byte b now) := decodeEvent_eventBytes 1 b now
  refine (decodeRead.eq_2 _ _ _ _ _ _ rest _ _ h).trans ?_
  simp only [hrest, if_true]

/-- The words of a READ decode to it, whatever its bytes (R91). -/
theorem decodeRead_readBytes (bs : List Byte) (now : Time) : decodeRead (readBytes now bs) = .ok (.read bs now) := by
  induction bs with
  | nil => exact decodeRead_tickWord now
  | cons b bs ih => exact decodeRead_byteWord_append b ih

section
variable (cfg : Config)

/-- An event-word packet decodes to the event of its op (R83). -/
theorem decode_eventPacket (op : BitVec 3) (b : Byte) (now : Time) :
    decode cfg (eventPacket op b now) = .ok (eventOfOp op b now) :=
  decodeEvent_eventBytes op b now

/-- A MsgType packet decodes to the row of its byte (R80). -/
theorem decode_msgPacket (b : Byte) (now : Time) : decode cfg (msgPacket b now) = .ok (msgOf cfg b now) := by
  simp only [decode, msgPacket, timeBytes, decodeMsg, timeOf_timeBytes]

/-- A sync-byte packet of the marker decodes to SYNC (R71). -/
theorem decode_syncPacket (now : Time) :
    decode cfg { fmt := .sync, bytes := cfg.syncVal :: timeBytes now } = .ok (.sync now) := by
  simp only [decode, timeBytes, decodeSync, timeOf_timeBytes, if_true]

/-- A micro-operation packet decodes to the micro-operation of its code (R120). -/
theorem decode_microPacket (code : BitVec 3) (b : Byte) (now : Time) :
    decode cfg (microPacket code b now) = .ok (microOfCode code b now) := by
  simp only [decode, microPacket, timeBytes, decodeMicro, opOf_setWidth, timeOf_timeBytes]

end

section
variable {cfg : Config}

/-- The byte of a well-formed MsgType row is of that row's message type (R80). -/
theorem msgClass_msgByte {c : MsgClass} (h : msgRowOk cfg c = true) : msgClass cfg (msgByte cfg c) = some c := by
  simpa only [msgRowOk, beq_iff_eq] using h

/-- A byte that is no legal MsgType has no message type (R80). -/
theorem msgClass_eq_none {b : Byte} (h : legalMsgType cfg b = false) : msgClass cfg b = none := by
  simpa only [legalMsgType, Option.isSome_eq_false_iff, Option.isNone_iff_eq_none] using h

end

/-- Settles O1: each format's packet decodes to its own row, a READ by induction on its bytes, and a sub-operation has no
packet. -/
theorem decodeGivesBackEncodedInstruction : Obligations.DecodeGivesBackEncodedInstruction := by
  unfold Obligations.DecodeGivesBackEncodedInstruction
  intro cfg i p hwf henc
  cases i with
  | nop | byte | tick | query | reset | illegalOp5 | illegalOp6 | illegalOp7 =>
    cases henc
    exact decode_eventPacket cfg _ _ _
  | read bs now =>
    cases henc
    exact decodeRead_readBytes bs now
  | msgObj | msgObjReq | msgObjAck | msgAck | msgNack =>
    cases henc
    rw [decode_msgPacket, msgOf, msgClass_msgByte hwf]
  | msgIllegal b now =>
    cases henc
    rw [decode_msgPacket, msgOf, msgClass_eq_none (by simpa [Instr.wf] using hwf)]
  | sync now =>
    cases henc
    exact decode_syncPacket cfg now
  | pWaitSync | pGotSync | pGotMsgType | pGotLength | pGotObjID | pGotInstID | pGotData | pGotCrc =>
    cases henc
    exact decode_microPacket cfg _ _ _
  | crcInit | crcUpd | crcFin | dLookup | dExtract | dPublish | cFrame | cStats | cTimeout | cPeriod => cases henc

/-! ## The event word as a number (R83) -/

/-- Bytes in front of others are the low digits of the number of both (R52). -/
theorem asmLe_append (as bs : List Byte) : asmLe (as ++ bs) = asmLe as + 2 ^ (8 * as.length) * asmLe bs := by
  simp only [asmLe_eq_ofDigits, List.map_append, Nat.ofDigits_append, List.length_map, Nat.pow_mul]

/-- The four bytes of a time are the digits of its number. -/
theorem asmLe_timeBytes (now : Time) : asmLe (timeBytes now) = now.toNat := by
  simp only [timeBytes, asmLe, BitVec.extractLsb'_toNat, Nat.shiftRight_eq_div_pow]
  omega

/-- The six bytes of an event word are the digits of `{op, b, now}` (R83). -/
theorem asmLe_eventBytes (op : BitVec 3) (b : Byte) (now : Time) :
    asmLe (eventBytes op b now) = op.toNat * 2 ^ 40 + b.toNat * 2 ^ 32 + now.toNat := by
  have hop : (op.setWidth 8).toNat = op.toNat := BitVec.toNat_setWidth_of_le (by decide)
  rw [eventBytes, asmLe_append, asmLe_timeBytes]
  simp only [asmLe, hop, timeBytes, List.length_cons, List.length_nil]
  omega

/-- Settles O3: the word as a number, the event of each of the eight ops, and `exec` on the events without a byte or a
time. -/
theorem eventWordLayoutAndMeaning : Obligations.EventWordLayoutAndMeaning := by
  unfold Obligations.EventWordLayoutAndMeaning
  intro cfg op b now s
  refine ⟨asmLe_eventBytes op b now, ?_, rfl, rfl, rfl, rfl⟩
  rw [decode_eventPacket]
  obtain ⟨n, hn⟩ := op
  interval_cases n <;> rfl

/-! ## The packed field entry (R87) -/

/-- The width of its code. -/
@[simp] theorem widthOf_widthCode (width : Width) : widthOf (widthCode width) = some width := by
  cases width <;> rfl

/-- The field type of its code. -/
@[simp] theorem fieldTypeOf_fieldTypeCode (ty : FieldType) : fieldTypeOf (fieldTypeCode ty) = ty := by
  cases ty <;> rfl

/-- A concatenation as a number: the low part is below its own width. -/
theorem toNat_append_eq_add {m n : Nat} (x : BitVec m) (y : BitVec n) :
    (x ++ y).toNat = x.toNat * 2 ^ n + y.toNat := by
  rw [BitVec.toNat_append, ← Nat.shiftLeft_add_eq_or_of_lt y.isLt, Nat.shiftLeft_eq]

/-- Unpacking reads each part of the packed word where packing put it, the slot modulo 2^16 and the offset modulo 2^8. -/
theorem unpackField_packField (f : FieldEntry) :
    unpackField (packField f) = some { f with slot := f.slot % 2 ^ 16, off := f.off % 2 ^ 8 } := by
  have hty : (packField f).extractLsb' 0 2 = fieldTypeCode f.ty := BitVec.extractLsb'_append_eq_right
  have hwidth : (packField f).extractLsb' 2 2 = widthCode f.width :=
    (BitVec.extractLsb'_append_eq_of_le le_rfl).trans BitVec.extractLsb'_append_eq_right
  have hoff : (packField f).extractLsb' 4 8 = BitVec.ofNat 8 f.off :=
    (BitVec.extractLsb'_append_eq_of_le (by decide)).trans
      ((BitVec.extractLsb'_append_eq_of_le le_rfl).trans BitVec.extractLsb'_append_eq_right)
  have hslot : (packField f).extractLsb' 12 16 = BitVec.ofNat 16 f.slot :=
    (BitVec.extractLsb'_append_eq_of_le (by decide)).trans
      ((BitVec.extractLsb'_append_eq_of_le (by decide)).trans BitVec.extractLsb'_append_eq_left)
  simp only [unpackField, hty, hwidth, hoff, hslot, widthOf_widthCode, fieldTypeOf_fieldTypeCode, Option.map_some,
    BitVec.toNat_ofNat]

/-- Settles O5: a slot and an offset in range are their own remainders. -/
theorem packedFieldEntryRoundTrip : Obligations.PackedFieldEntryRoundTrip := by
  unfold Obligations.PackedFieldEntryRoundTrip
  intro f hslot hoff
  refine ⟨by rw [unpackField_packField, Nat.mod_eq_of_lt hslot, Nat.mod_eq_of_lt hoff], ?_⟩
  simp only [packField, toNat_append_eq_add, BitVec.toNat_ofNat, Nat.mod_eq_of_lt hslot, Nat.mod_eq_of_lt hoff]
  omega

/-! ## The MsgType map (R80) -/

/-- A byte is legal exactly where its upper bits are the version tag and its other bits a type value. -/
theorem legalMsgType_iff (cfg : Config) (b : Byte) :
    legalMsgType cfg b = true ↔ b &&& cfg.verMask = cfg.verTag ∧ b &&& ~~~cfg.verMask ∈ typeValues cfg := by
  unfold legalMsgType msgClass
  split_ifs with h
  · simp [h, typeValues, typeValue]
  · simp [h]

/-- A byte is its bits under a mask together with its other bits. -/
theorem and_or_and_not {w : Nat} (b m : BitVec w) : (b &&& m) ||| (b &&& ~~~m) = b := by
  rw [← BitVec.and_or_distrib_left, BitVec.or_not_self, BitVec.and_allOnes]

/-- Settles O6: the map is `legalMsgType_iff`; under the defaults a legal byte is 0x20 joined to one of the types 0 to 4. -/
theorem legalMsgTypeMap : Obligations.LegalMsgTypeMap := by
  unfold Obligations.LegalMsgTypeMap
  intro cfg b
  refine ⟨by simp [legalMsgType_iff, typeValues], ?_⟩
  constructor
  · rw [legalMsgType_iff]
    rintro ⟨htag, htype⟩
    rw [← and_or_and_not b Config.default.verMask, htag]
    simp only [typeValues, List.mem_cons, List.not_mem_nil, or_false] at htype
    rcases htype with h | h | h | h | h <;> rw [h] <;> decide
  · rintro (rfl | rfl | rfl | rfl | rfl) <;> rfl

/-! ## A header field as the sum of its bytes (R52, R76) -/

/-- The bytes of a field taken into its register one after the other, `k` having been taken before (R76). -/
def asmSteps {w : Nat} (o : ByteOrder) : Nat → BitVec w → List Byte → BitVec w
  | _, r, [] => r
  | k, r, b :: bs => asmSteps o (k + 1) (asmStep o k r b) bs

/-- The number of `n` bytes has 8n bits. -/
theorem asmLe_lt (bs : List Byte) : asmLe bs < 2 ^ (8 * bs.length) := by
  rw [asmLe_eq_ofDigits, Nat.pow_mul]
  simpa using Nat.ofDigits_lt_base_pow_length (by decide) (lt_of_mem_map_toNat bs)

/-- The same in either byte order. -/
theorem asm_lt (o : ByteOrder) (bs : List Byte) : asm o bs < 2 ^ (8 * bs.length) := by
  cases o with
  | le => exact asmLe_lt bs
  | be => simpa [asm] using asmLe_lt bs.reverse

/-- A register that holds `asm_n` of the bytes taken, with room for one more, holds it of one byte more after the next step
(R76). -/
theorem toNat_asmStep {w : Nat} {o : ByteOrder} {r : BitVec w} {as : List Byte} (b : Byte) (hr : r.toNat = asm o as)
    (hw : 8 * (as.length + 1) ≤ w) : (asmStep o as.length r b).toNat = asm o (as ++ [b]) := by
  have hb : (b.setWidth w).toNat = b.toNat := BitVec.toNat_setWidth_of_le (by omega)
  have hlt : asm o as < 2 ^ (8 * as.length) := asm_lt o as
  have hpow : 2 ^ (8 * as.length) * 2 ^ 8 ≤ 2 ^ w := by
    rw [← Nat.pow_add]
    exact Nat.pow_le_pow_right two_pos hw
  unfold asmStep
  split_ifs with h0
  · obtain rfl := List.length_eq_zero_iff.1 h0
    cases o <;> simp [hb, asm, asmLe]
  · cases o with
    | le =>
      have hshift : b.toNat * 2 ^ (8 * as.length) < 2 ^ w := by nlinarith [b.isLt]
      simp only [asm] at hr hlt ⊢
      rw [BitVec.toNat_or, BitVec.toNat_shiftLeft, hb, hr, Nat.shiftLeft_eq, Nat.mod_eq_of_lt hshift,
        ← Nat.shiftLeft_eq, Nat.or_comm, ← Nat.shiftLeft_add_eq_or_of_lt hlt, Nat.shiftLeft_eq, asmLe_append]
      simp only [asmLe]
      ring
    | be =>
      have hshift : r.toNat * 2 ^ 8 < 2 ^ w := by nlinarith
      rw [BitVec.toNat_or, BitVec.toNat_shiftLeft, hb, Nat.shiftLeft_eq, Nat.mod_eq_of_lt hshift,
        ← Nat.shiftLeft_eq, ← Nat.shiftLeft_add_eq_or_of_lt b.isLt, Nat.shiftLeft_eq, hr]
      simp only [asm, List.reverse_append, List.reverse_singleton, List.singleton_append, asmLe]
      omega

/-- After its bytes are taken a register holds `asm_n` of them (R52, R76). -/
theorem toNat_asmSteps {w : Nat} {o : ByteOrder} {r : BitVec w} {as : List Byte} (bs : List Byte)
    (hr : r.toNat = asm o as) (hw : 8 * (as.length + bs.length) ≤ w) :
    (asmSteps o as.length r bs).toNat = asm o (as ++ bs) := by
  induction bs generalizing as r with
  | nil => simpa [asmSteps] using hr
  | cons b bs ih =>
    rw [List.length_cons] at hw
    have hstep := toNat_asmStep b hr (by omega)
    simpa [asmSteps] using ih hstep (by simp; omega)

/-- From an empty register the bytes of a field end in `asm_n` of them (R52, R76). -/
theorem asmSteps_eq_ofNat_asm {w : Nat} (o : ByteOrder) (bs : List Byte) (hw : 8 * bs.length ≤ w) :
    asmSteps o 0 (0 : BitVec w) bs = BitVec.ofNat w (asm o bs) := by
  have h : (asmSteps o 0 (0 : BitVec w) bs).toNat = asm o bs :=
    toNat_asmSteps (as := []) bs (by cases o <;> rfl) (by simpa using hw)
  rw [← h, BitVec.ofNat_toNat, BitVec.setWidth_eq]

/-- The second Length byte completes `asm_2` of both (R126). -/
theorem lengthOf_eq_ofNat_asm (o : ByteOrder) (b0 b1 : Byte) :
    lengthOf o (b0.setWidth 16) b1 = BitVec.ofNat 16 (asm o [b0, b1]) := by
  have hfirst : (b0.setWidth 16).extractLsb' 0 8 = b0 := by
    rw [BitVec.extractLsb'_setWidth_of_le (by decide), BitVec.extractLsb'_eq_self]
  apply BitVec.eq_of_toNat_eq
  have hlt : asm o [b0, b1] < 2 ^ 16 := asm_lt o [b0, b1]
  rw [BitVec.toNat_ofNat, Nat.mod_eq_of_lt hlt]
  cases o with
  | le =>
    rw [lengthOf, hfirst]
    refine (toNat_append_eq_add b1 b0).trans ?_
    simp only [asm, asmLe]
    omega
  | be =>
    rw [lengthOf, hfirst]
    refine (toNat_append_eq_add b0 b1).trans ?_
    simp only [asm, asmLe, List.reverse_cons, List.reverse_nil, List.nil_append, List.cons_append]
    omega

/-- Settles O7: the chain of steps on four or two bytes is `asmSteps`, so each clause is `asm_n` of the bytes, written out as
its sum. -/
theorem fieldAssemblyIsTheByteSum : Obligations.FieldAssemblyIsTheByteSum := by
  unfold Obligations.FieldAssemblyIsTheByteSum
  intro b0 b1 b2 b3
  refine ⟨(asmSteps_eq_ofNat_asm .le [b0, b1, b2, b3] (by simp)).trans ?_,
    (asmSteps_eq_ofNat_asm .be [b0, b1, b2, b3] (by simp)).trans ?_,
    (asmSteps_eq_ofNat_asm .le [b0, b1] (by simp)).trans ?_,
    (asmSteps_eq_ofNat_asm .be [b0, b1] (by simp)).trans ?_,
    (lengthOf_eq_ofNat_asm .le b0 b1).trans ?_, (lengthOf_eq_ofNat_asm .be b0 b1).trans ?_⟩
  all_goals
    congr 1
    simp only [asm, asmLe, List.reverse_cons, List.reverse_nil, List.nil_append, List.cons_append]
    omega

/-! ## A cycle of the port-level binding (R85, R86) -/

/-- RESET shows WaitSync and Disconnected (R85, R230). -/
theorem cycle_of_rst {p : PortIn} (h : p.rst = true) (n : Nat) (s : State) :
    cycle n p s = .next (s.resetAll, portsOf n p s.resetAll [s.resetAll.out]) := by
  simp only [cycle, PortIn.events, h, if_true]
  rfl

/-- With a byte and a tick the cycle is the BYTE step and then the TICK step, and its ports are of both (R86). -/
theorem cycle_of_byte_tick {p : PortIn} {s u t : State} (hrst : p.rst = false) (hvalid : p.inValid = true)
    (htick : p.tick = true) (hu : exec (.byte p.inByte p.now) s = .next u) (ht : exec (.tick p.now) u = .next t)
    (n : Nat) : cycle n p s = .next (t, portsOf n p t [u.out, t.out]) := by
  simp [cycle, PortIn.events, runEvents, hrst, hvalid, htick, hu, ht]

/-- Of two steps a field has a value where one of them gives it one. -/
theorem isSome_firstOf_pair {α : Type} (f : Output → Option α) (o o' : Output) :
    (firstOf f [o, o']).isSome = ((f o).isSome || (f o').isSome) := by
  unfold firstOf
  cases h : f o <;> cases h' : f o' <;> simp [h, h']

/-- Settles O60: the two kinds of cycle above, and the ports by their definition. -/
theorem cycleRunsByteThenTick : Obligations.CycleRunsByteThenTick := by
  unfold Obligations.CycleRunsByteThenTick
  intro n p s
  refine ⟨fun hrst => ⟨_, _, rfl, cycle_of_rst hrst n s, rfl, rfl⟩, ?_⟩
  intro hrst hvalid htick u t hu ht
  exact ⟨_, cycle_of_byte_tick hrst hvalid htick hu ht n, rfl, rfl, isSome_firstOf_pair (·.tx) u.out t.out, rfl⟩

/-! ## Words of the table, packets refused, and bytes of the wire -/

/-- Settles O4: ten closed words, read by the decoder. -/
theorem decodesWordsWrittenFromTheSpec : Obligations.DecodesWordsWrittenFromTheSpec := by
  unfold Obligations.DecodesWordsWrittenFromTheSpec
  decide

/-- Under a well-formed configuration an oldest stimulus that is no instruction is refused by the decoder's reason. -/
theorem step_of_decode_rejected {s : State} {p : Packet} {rest : List Packet} {e : DecodeError}
    (hc : configProblem s.cfg = none) (hq : s.input = p :: rest) (hd : decode s.cfg p = .rejected e) :
    step s = .refused (.undecodable e) := by
  simp only [step, hc, fetch, hq, hd]

/-- Settles O11: the queue's head is fetched, and `step` refuses it as the decoder does. -/
theorem undecodablePacketIsRefused : Obligations.UndecodablePacketIsRefused := by
  unfold Obligations.UndecodablePacketIsRefused
  exact fun s p rest e hc hq hd => step_of_decode_rejected hc hq hd

/-- Settles O18: `feedBytes` on no byte, and on one more byte in front. -/
theorem bytesAreByteStepsInOrder : Obligations.BytesAreByteStepsInOrder := by
  unfold Obligations.BytesAreByteStepsInOrder
  exact fun now s => ⟨rfl, fun b bs r => feedBytes_cons_eq_next_iff now b bs s r⟩

/-- A BYTE of the marker in WaitSync starts a frame (R121). -/
theorem execByte_syncVal_of_waitSync {s : State} (h : s.pstate = .waitSync) (now : Time) :
    execByte s.cfg.syncVal now s = .next
      { s.accept s.cfg.syncVal with
        crc := crcUpdate s.cfg.crc s.cfg.crc.init s.cfg.syncVal
        pstate := .gotSync
        cnt := 0 } := by
  simp only [execByte, h, execPWaitSync, selected_of_pstate h, if_true]

/-- Settles O30: each wire row is by definition the BYTE step of its byte, which in WaitSync is P.WAITSYNC. -/
theorem wireBytesAreOrdinaryElsewhere : Obligations.WireBytesAreOrdinaryElsewhere := by
  unfold Obligations.WireBytesAreOrdinaryElsewhere
  exact fun b now s => ⟨fun h => execByte_syncVal_of_waitSync h now, rfl, rfl, rfl, rfl, rfl, rfl, rfl⟩

end Sys2Proof.Machine

namespace Sys2Proof.Machine

/-! ## The CRC Engine's operations (40_crc.md R101 to R103) -/

/-- Settles O36: each operation is by definition one record update. -/
theorem crcOperationsWriteOnlyCrc : Obligations.CrcOperationsWriteOnlyCrc := by
  unfold Obligations.CrcOperationsWriteOnlyCrc
  exact fun b s => ⟨rfl, rfl, rfl⟩

/-! ## The default update, bit by bit (R108, R110) -/

/-- The bits of a byte after one round: each moves up, and bit 7 comes round into bits 0, 1 and 2, those of 0x07. -/
theorem getLsbD_crc8Round (x : Byte) :
    (crc8Round x).getLsbD 0 = x.getLsbD 7 ∧ (crc8Round x).getLsbD 1 = (x.getLsbD 0 ^^ x.getLsbD 7) ∧
    (crc8Round x).getLsbD 2 = (x.getLsbD 1 ^^ x.getLsbD 7) ∧ (crc8Round x).getLsbD 3 = x.getLsbD 2 ∧
    (crc8Round x).getLsbD 4 = x.getLsbD 3 ∧ (crc8Round x).getLsbD 5 = x.getLsbD 4 ∧
    (crc8Round x).getLsbD 6 = x.getLsbD 5 ∧ (crc8Round x).getLsbD 7 = x.getLsbD 6 := by
  unfold crc8Round
  cases h7 : x.getLsbD 7 <;> simp_all

/-- Settles O37: eight rounds on the bits of `c ^ b`, and what an exclusive-or meets twice cancels. -/
theorem defaultCrcEquations : Obligations.DefaultCrcEquations := by
  unfold Obligations.DefaultCrcEquations
  intro c b
  simp only [crc8Update, crc8Rounds, getLsbD_crc8Round]
  generalize c ^^^ b = x
  generalize x.getLsbD 0 = x0, x.getLsbD 1 = x1, x.getLsbD 2 = x2, x.getLsbD 3 = x3, x.getLsbD 4 = x4,
    x.getLsbD 5 = x5, x.getLsbD 6 = x6, x.getLsbD 7 = x7
  refine ⟨?_, ?_, ?_, ?_, ?_, ?_, ?_, ?_⟩ <;> simp [Bool.xor_comm, Bool.xor_left_comm]

/-! ## The default update as a linear map (R111) -/

/-- What a round takes off for the bit shifted out (R108). -/
def crc8Reduction (bit : Bool) : Byte := bif bit then 0x07 else 0

/-- A round is a shift and a reduction by bit 7. -/
theorem crc8Round_eq (x : Byte) : crc8Round x = x <<< 1 ^^^ crc8Reduction (x.getLsbD 7) := by
  unfold crc8Round crc8Reduction
  cases x.getLsbD 7 <;> simp

/-- The reduction is linear in the bit. -/
theorem crc8Reduction_xor (p q : Bool) : crc8Reduction (p ^^ q) = crc8Reduction p ^^^ crc8Reduction q := by
  decide +revert

/-- So a round is linear, as the shift is. -/
theorem crc8Round_xor (x y : Byte) : crc8Round (x ^^^ y) = crc8Round x ^^^ crc8Round y := by
  simp only [crc8Round_eq, BitVec.shiftLeft_xor_distrib, BitVec.getLsbD_xor, crc8Reduction_xor]
  ac_rfl

/-- Rounds are linear. -/
theorem crc8Rounds_xor (n : Nat) (x y : Byte) : crc8Rounds n (x ^^^ y) = crc8Rounds n x ^^^ crc8Rounds n y := by
  induction n generalizing x y with
  | zero => rfl
  | succ n ih => rw [crc8Rounds, crc8Round_xor, ih, ← crc8Rounds, ← crc8Rounds]

/-- Only 0 is taken to 0 by a round: 0x07 has bit 0, which the shift leaves clear. -/
theorem eq_zero_of_crc8Round_eq_zero (x : Byte) (h : crc8Round x = 0) : x = 0 := by
  decide +revert

/-- A round loses nothing. -/
theorem crc8Round_injective : Function.Injective crc8Round := by
  intro x y h
  have hxor : crc8Round (x ^^^ y) = 0 := by rw [crc8Round_xor, h, BitVec.xor_self]; rfl
  exact BitVec.xor_eq_zero_iff.1 (eq_zero_of_crc8Round_eq_zero _ hxor)

/-- Nor do any number of rounds. -/
theorem crc8Rounds_injective (n : Nat) : Function.Injective (crc8Rounds n) := by
  induction n with
  | zero => exact Function.injective_id
  | succ n ih => exact ih.comp crc8Round_injective

/-- The update of (0, b) is the eight rounds on b: the table entry T[b] of R108. -/
theorem crc8Update_zero (b : Byte) : crc8Update 0 b = crc8Rounds 8 b :=
  congrArg (crc8Rounds 8) BitVec.zero_xor

/-- A value updated by itself gives 0. -/
theorem crc8Update_self (c : Byte) : crc8Update c c = 0 := by
  rw [crc8Update, BitVec.xor_self]
  rfl

/-- Settles O38: the update is eight rounds on `c ^ b`, and rounds are linear and lose nothing. -/
theorem defaultCrcLaws : Obligations.DefaultCrcLaws := by
  unfold Obligations.DefaultCrcLaws
  refine ⟨fun a b => ?_, fun c b => ?_, fun b => ?_, fun c => ?_, rfl, fun m => ?_⟩
  · simp only [crc8Update_zero, crc8Rounds_xor]
  · rw [crc8Update_zero, crc8Update_zero]
    exact crc8Rounds_xor 8 c b
  · exact Finite.injective_iff_bijective.1 fun c c' h => (BitVec.xor_left_inj b).1 (crc8Rounds_injective 8 h)
  · exact Finite.injective_iff_bijective.1 fun b b' h => (BitVec.xor_right_inj c).1 (crc8Rounds_injective 8 h)
  · rw [crcFold_snoc]
    exact congrArg BitVec.toNat (crc8Update_self _)

/-! ## The bytes a field holds, in order of arrival (R52, R92) -/

/-- The low bytes of the number of a byte list are the list. -/
theorem leBytes_asmLe (bs : List Byte) : leBytes bs.length (asmLe bs) = bs := by
  induction bs with
  | nil => rfl
  | cons b bs ih =>
    have hlow : BitVec.ofNat 8 (b.toNat + 256 * asmLe bs) = b := by
      apply BitVec.eq_of_toNat_eq
      rw [BitVec.toNat_ofNat]
      omega
    have hhigh : (b.toNat + 256 * asmLe bs) / 256 = asmLe bs := by omega
    rw [List.length_cons, asmLe, leBytes, hlow, hhigh, ih]

/-- The number of the `n` low bytes of a value below 256^n is the value. -/
theorem asmLe_leBytes {n v : Nat} (h : v < 256 ^ n) : asmLe (leBytes n v) = v := by
  induction n generalizing v with
  | zero => rw [Nat.pow_zero, Nat.lt_one_iff] at h; exact h.symm
  | succ n ih =>
    rw [leBytes, asmLe, ih (Nat.div_lt_of_lt_mul (by rwa [Nat.pow_succ'] at h)), BitVec.toNat_ofNat]
    omega

@[simp] theorem length_leBytes (n v : Nat) : (leBytes n v).length = n := by
  induction n generalizing v with
  | zero => rfl
  | succ n ih => rw [leBytes, List.length_cons, ih]

@[simp] theorem length_bytesOf (o : ByteOrder) (n v : Nat) : (bytesOf o n v).length = n := by
  cases o <;> simp [bytesOf]

@[simp] theorem bytesOf_zero (o : ByteOrder) (v : Nat) : bytesOf o 0 v = [] := by
  cases o <;> rfl

/-- The bytes of `asm_n` of a byte list are the list. -/
theorem bytesOf_asm (o : ByteOrder) (bs : List Byte) : bytesOf o bs.length (asm o bs) = bs := by
  cases o with
  | le => exact leBytes_asmLe bs
  | be => rw [bytesOf, asm, ← List.length_reverse, leBytes_asmLe, List.reverse_reverse]

/-- `asm_n` of the `n` bytes of a value below 256^n is the value. -/
theorem asm_bytesOf (o : ByteOrder) {n v : Nat} (h : v < 256 ^ n) : asm o (bytesOf o n v) = v := by
  cases o with
  | le => exact asmLe_leBytes h
  | be => rw [asm, bytesOf, List.reverse_reverse, asmLe_leBytes h]

/-- A register with `k` bytes of its field holds those and one more after the next step (R76). -/
theorem bytesOf_asmStep {w k : Nat} (o : ByteOrder) {r : BitVec w} (b : Byte) (hr : r.toNat < 256 ^ k)
    (hw : 8 * (k + 1) ≤ w) : bytesOf o (k + 1) (asmStep o k r b).toNat = bytesOf o k r.toNat ++ [b] := by
  have hstep := toNat_asmStep (o := o) b (asm_bytesOf o hr).symm (by rwa [length_bytesOf])
  rw [length_bytesOf] at hstep
  rw [hstep]
  have hbytes := bytesOf_asm o (bytesOf o k r.toNat ++ [b])
  rwa [List.length_append, length_bytesOf] at hbytes

/-- The first byte of a field is what its register holds after it. -/
theorem bytesOf_one_setWidth {w : Nat} (o : ByteOrder) (b : Byte) (hw : 8 ≤ w) :
    bytesOf o 1 (b.setWidth w).toNat = [b] := by
  rw [BitVec.toNat_setWidth_of_le hw]
  cases o <;> simp [bytesOf, leBytes]

/-- A register that holds none reads as 0: the first byte does not read it (R76). -/
theorem eq_asmStep_of_asmReg {w k : Nat} {o : ByteOrder} {r : Option (BitVec w)} {b : Byte} {v : BitVec w}
    (h : asmReg o k r b = some v) : v = asmStep o k (r.getD 0) b := by
  unfold asmReg at h
  split_ifs at h with h0
  · subst h0
    cases h
    rfl
  · obtain ⟨u, rfl, rfl⟩ := Option.map_eq_some_iff.1 h
    rfl

/-- A field in part taken, and its next byte: its bytes are one more. -/
theorem PartialField.bytesOf_asmReg {w : Nat} {cnt : Byte} {r : Option (BitVec w)} {v : BitVec w} {o : ByteOrder}
    {b : Byte} (h : PartialField cnt r) (hv : asmReg o cnt.toNat r b = some v) (hw : 8 * (cnt.toNat + 1) ≤ w) :
    bytesOf o (cnt.toNat + 1) v.toNat = bytesOf o cnt.toNat (r.getD 0).toNat ++ [b] := by
  obtain ⟨-, hlt⟩ := h
  have hr : (r.getD 0).toNat < 256 ^ cnt.toNat := by
    cases r with
    | none => simp
    | some u => simpa using hlt
  exact eq_asmStep_of_asmReg hv ▸ bytesOf_asmStep o b hr hw

/-- The second Length byte completes the two bytes of Length (R126). -/
theorem bytesOf_lengthOf (o : ByteOrder) {first : Half} (b : Byte) (h : first.toNat < 256) :
    bytesOf o 2 (lengthOf o first b).toNat = bytesOf o 1 first.toNat ++ [b] := by
  obtain ⟨b0, rfl⟩ : ∃ b0 : Byte, first = b0.setWidth 16 := ⟨first.setWidth 8, by bv_omega⟩
  have hlt : asm o [b0, b] < 2 ^ 16 := asm_lt o [b0, b]
  rw [lengthOf_eq_ofNat_asm, BitVec.toNat_ofNat, Nat.mod_eq_of_lt hlt, bytesOf_one_setWidth o b0 (by decide)]
  exact bytesOf_asm o [b0, b]

/-! ## A byte taken into the frame in progress (R102, R104) -/

/-- `t` holds one byte more of the frame in progress than `s`, and folds it into `crc`. -/
structure State.Takes (s : State) (b : Byte) (t : State) : Prop where
  cfg : t.cfg = s.cfg
  crc : t.crc = crcUpdate s.cfg.crc s.crc b
  wire : t.wireSoFar = s.wireSoFar ++ [b]

/-- A byte taken keeps the checksum invariant. -/
theorem State.Takes.checksumOk {s t : State} {b : Byte} (h : s.Takes b t) (hs : s.ChecksumOk) : t.ChecksumOk := by
  obtain ⟨hcfg, hcrc, hwire⟩ := h
  rw [State.ChecksumOk, hcfg, hwire, crcFold_snoc, ← hs, hcrc]

/-- The bytes of a frame up to Length (R70). -/
def State.wireToLength (s : State) : List Byte :=
  [s.cfg.syncVal] ++ s.fType.toList ++ bytesOf s.cfg.byteOrder 2 (s.fLen.getD 0).toNat

/-- The bytes of a frame up to ObjID (R70). -/
def State.wireToObjId (s : State) : List Byte :=
  s.wireToLength ++ bytesOf s.cfg.byteOrder 4 (s.fObjid.getD 0).toNat

/-- The bytes of a frame up to the end of its header, InstID only where H = 10 (R70). -/
def State.wireToInstId (s : State) : List Byte :=
  s.wireToObjId ++ if s.cfg.h = 10 then bytesOf s.cfg.byteOrder 2 (s.fInstid.getD 0).toNat else []

section
variable {s : State}

/-- In WaitSync no byte of a frame is held. -/
theorem State.wireSoFar_of_waitSync (hp : s.pstate = .waitSync) : s.wireSoFar = [] := by
  simp only [State.wireSoFar, hp]

/-- In GotSync the marker is. -/
theorem State.wireSoFar_of_gotSync (hp : s.pstate = .gotSync) : s.wireSoFar = [s.cfg.syncVal] := by
  simp only [State.wireSoFar, hp]

/-- In GotMsgType the marker, the MsgType, and the Length bytes taken. -/
theorem State.wireSoFar_of_gotMsgType (hp : s.pstate = .gotMsgType) :
    s.wireSoFar = [s.cfg.syncVal] ++ s.fType.toList ++ bytesOf s.cfg.byteOrder s.cnt.toNat (s.fLen.getD 0).toNat := by
  simp only [State.wireSoFar, hp]

/-- No Length byte is held before the first. -/
theorem State.wireSoFar_of_gotMsgType_zero (hp : s.pstate = .gotMsgType) (h0 : s.cnt = 0) :
    s.wireSoFar = [s.cfg.syncVal] ++ s.fType.toList := by
  simp [State.wireSoFar_of_gotMsgType hp, h0]

/-- In GotLength the header up to Length, and the ObjID bytes taken. -/
theorem State.wireSoFar_of_gotLength (hp : s.pstate = .gotLength) :
    s.wireSoFar = s.wireToLength ++ bytesOf s.cfg.byteOrder s.cnt.toNat (s.fObjid.getD 0).toNat := by
  simp only [State.wireSoFar, hp, State.wireToLength]

/-- No ObjID byte is held before the first. -/
theorem State.wireSoFar_of_gotLength_zero (hp : s.pstate = .gotLength) (h0 : s.cnt = 0) :
    s.wireSoFar = s.wireToLength := by
  simp [State.wireSoFar_of_gotLength hp, h0]

/-- In GotObjID, which only H = 10 has, the header up to ObjID, and the InstID bytes taken. -/
theorem State.wireSoFar_of_gotObjID (hp : s.pstate = .gotObjID) (h10 : s.cfg.h = 10) :
    s.wireSoFar = s.wireToObjId ++ bytesOf s.cfg.byteOrder s.cnt.toNat (s.fInstid.getD 0).toNat := by
  simp only [State.wireSoFar, hp, if_pos h10, State.wireToObjId, State.wireToLength]

/-- No InstID byte is held before the first. -/
theorem State.wireSoFar_of_gotObjID_zero (hp : s.pstate = .gotObjID) (h10 : s.cfg.h = 10) (h0 : s.cnt = 0) :
    s.wireSoFar = s.wireToObjId := by
  simp [State.wireSoFar_of_gotObjID hp h10, h0]

/-- After the header, the header and the Data bytes taken. -/
theorem State.wireSoFar_of_data (hp : s.pstate = .gotInstID ∨ s.pstate = .gotData) :
    s.wireSoFar = s.wireToInstId ++ s.dbuf.map (·.2) := by
  rcases hp with hp | hp <;>
    simp only [State.wireSoFar, hp, State.wireToInstId, State.wireToObjId, State.wireToLength]

/-- At the end of the header no Data byte was taken (R131). -/
theorem State.wireSoFar_endHeader {len : Half} (hd : s.dbuf = []) :
    (s.endHeader len).wireSoFar = s.wireToInstId := by
  have hp : (s.endHeader len).pstate = .gotInstID ∨ (s.endHeader len).pstate = .gotData := by
    rw [State.endHeader_pstate]
    split_ifs <;> simp
  rw [State.wireSoFar_of_data hp, State.endHeader_dbuf, hd, List.map_nil, List.append_nil]
  rfl

/-- In WaitSync `crc` is CRC_INIT, and no byte has been folded (R23). -/
theorem State.Inv.checksumOk_of_waitSync (h : s.Inv) (hp : s.pstate = .waitSync) : s.ChecksumOk := by
  obtain ⟨-, -, -, hcrc, -⟩ := h
  rw [State.ChecksumOk, State.wireSoFar_of_waitSync hp, crcFold_nil, hcrc hp]

end

section
variable {s t : State} (hs : s.Inv) {b : Byte} {now : Time}
include hs

/-- P.WAITSYNC takes the marker, or nothing (R121, R122). -/
theorem execPWaitSync_takes (h : execPWaitSync b now s = .next t) : t.pstate = .waitSync ∨ s.Takes b t := by
  obtain ⟨hp, h⟩ := (selected_eq_next_iff _ _ _ _).1 h
  obtain ⟨-, -, -, hcrc, -⟩ := hs
  split_ifs at h with hsync
  · cases h
    refine .inr ⟨rfl, by rw [hcrc hp], ?_⟩
    rw [State.wireSoFar_of_waitSync hp, hsync]
    exact State.wireSoFar_of_gotSync rfl
  · cases h
    exact .inl hp

omit hs in
/-- P.GOTSYNC takes a legal MsgType, or discards (R123, R124). -/
theorem execPGotSync_takes (h : execPGotSync b now s = .next t) : t.pstate = .waitSync ∨ s.Takes b t := by
  obtain ⟨hp, h⟩ := (selected_eq_next_iff _ _ _ _).1 h
  split_ifs at h
  · cases h
    refine .inr ⟨rfl, rfl, ?_⟩
    rw [State.wireSoFar_of_gotSync hp]
    exact Eq.trans (State.wireSoFar_of_gotMsgType_zero rfl rfl) rfl
  · cases h
    exact .inl rfl

/-- P.GOTMSGTYPE takes a Length byte, or discards (R125 to R127). -/
theorem execPGotMsgType_takes (h : execPGotMsgType b now s = .next t) : t.pstate = .waitSync ∨ s.Takes b t := by
  obtain ⟨hp, h⟩ := (selected_eq_next_iff _ _ _ _).1 h
  obtain ⟨-, hs⟩ := (inv_iff s).1 hs
  simp only [State.ParserInv, hp] at hs
  obtain ⟨-, -, ⟨-, hlt⟩, -⟩ := hs
  split_ifs at h with h0 h1
  · cases h
    have hbytes := bytesOf_one_setWidth (w := 16) s.cfg.byteOrder b (by decide)
    refine .inr ⟨rfl, rfl, Eq.trans (State.wireSoFar_of_gotMsgType hp) ?_⟩
    rw [State.wireSoFar_of_gotMsgType_zero hp h0]
    exact congrArg (_ ++ ·) hbytes
  · obtain ⟨first, hfirst, h⟩ := (need_eq_next_iff _ _ _ _).1 h
    have hbytes := bytesOf_lengthOf s.cfg.byteOrder b (first := first) (by simpa [hfirst, h1] using hlt)
    dsimp only at h
    split_ifs at h
    · cases h
      refine .inr ⟨rfl, rfl, Eq.trans (State.wireSoFar_of_gotLength_zero rfl rfl) ?_⟩
      rw [State.wireSoFar_of_gotMsgType hp, h1, hfirst, List.append_assoc]
      exact congrArg (_ ++ ·) hbytes
    · cases h
      exact .inl rfl

/-- P.GOTLENGTH takes an ObjID byte, the fourth one to the end of the header where H = 8 (R128, R129, R131). -/
theorem execPGotLength_takes (h : execPGotLength b now s = .next t) : s.Takes b t := by
  obtain ⟨hp, h⟩ := (selected_eq_next_iff _ _ _ _).1 h
  obtain ⟨-, hs⟩ := (inv_iff s).1 hs
  simp only [State.ParserInv, hp] at hs
  obtain ⟨hcnt, -, -, hobjid, -, hdbuf⟩ := hs
  rw [if_pos hcnt] at h
  obtain ⟨objid, hasm, h⟩ := (need_eq_next_iff _ _ _ _).1 h
  have hbytes := hobjid.bytesOf_asmReg hasm (by omega)
  have hwire : s.wireSoFar ++ [b] = s.wireToLength ++ bytesOf s.cfg.byteOrder (s.cnt.toNat + 1) objid.toNat := by
    rw [State.wireSoFar_of_gotLength hp, hbytes, List.append_assoc]
  split_ifs at h with h3 h10
  · cases h
    have hsucc : (s.cnt + 1).toNat = s.cnt.toNat + 1 := by bv_omega
    rw [← hsucc] at hwire
    exact ⟨rfl, rfl, Eq.trans (State.wireSoFar_of_gotLength hp) hwire.symm⟩
  · cases h
    rw [show s.cnt.toNat = 3 by omega] at hwire
    exact ⟨rfl, rfl, Eq.trans (State.wireSoFar_of_gotObjID_zero rfl h10 rfl) hwire.symm⟩
  · obtain ⟨len, -, h⟩ := (need_eq_next_iff _ _ _ _).1 h
    cases h
    rw [show s.cnt.toNat = 3 by omega] at hwire
    refine ⟨rfl, rfl, Eq.trans (State.wireSoFar_endHeader hdbuf) ?_⟩
    exact (congrArg (_ ++ ·) (if_neg h10)).trans ((List.append_nil _).trans hwire.symm)

/-- P.GOTOBJID takes an InstID byte, the second one to the end of the header (R130, R131). -/
theorem execPGotObjID_takes (h : execPGotObjID b now s = .next t) : s.Takes b t := by
  obtain ⟨hp, h⟩ := (selected_eq_next_iff _ _ _ _).1 h
  obtain ⟨-, hs⟩ := (inv_iff s).1 hs
  simp only [State.ParserInv, hp] at hs
  obtain ⟨h10, -, -, -, -, hinstid, hdbuf⟩ := hs
  split_ifs at h with h0 h1
  · cases h
    have hbytes := bytesOf_one_setWidth (w := 16) s.cfg.byteOrder b (by decide)
    refine ⟨rfl, rfl, Eq.trans (State.wireSoFar_of_gotObjID hp h10) ?_⟩
    rw [State.wireSoFar_of_gotObjID_zero hp h10 h0]
    exact congrArg (_ ++ ·) hbytes
  · obtain ⟨instid, hasm, h⟩ := (need_eq_next_iff _ _ _ _).1 h
    obtain ⟨len, -, h⟩ := (need_eq_next_iff _ _ _ _).1 h
    rw [h1] at hinstid
    have hbytes := hinstid.bytesOf_asmReg hasm (by decide)
    cases h
    refine ⟨rfl, rfl, Eq.trans (State.wireSoFar_endHeader hdbuf) ?_⟩
    rw [State.wireSoFar_of_gotObjID hp h10, h1, List.append_assoc]
    exact congrArg (_ ++ ·) ((if_pos h10).trans hbytes)

/-- P.GOTINSTID takes a Data byte to the cell after those taken (R132, R133). -/
theorem execPGotInstID_takes (h : execPGotInstID b now s = .next t) : s.Takes b t := by
  obtain ⟨hp, h⟩ := (selected_eq_next_iff _ _ _ _).1 h
  obtain ⟨-, hs⟩ := (inv_iff s).1 hs
  simp only [State.ParserInv, hp] at hs
  obtain ⟨-, -, hkeys⟩ := hs
  have hdata : (Memory.write s.dbuf s.cnt.toNat b).map (·.2) = s.dbuf.map (·.2) ++ [b] := by
    rw [Memory.write_eq_append _ _ _ (by simp [hkeys]), List.map_append]
    rfl
  have hwire : s.wireSoFar ++ [b] = s.wireToInstId ++ (Memory.write s.dbuf s.cnt.toNat b).map (·.2) := by
    rw [State.wireSoFar_of_data (.inl hp), hdata, List.append_assoc]
  obtain ⟨len, -, h⟩ := (need_eq_next_iff _ _ _ _).1 h
  dsimp only at h
  split_ifs at h
  · cases h
    exact ⟨rfl, rfl, Eq.trans (State.wireSoFar_of_data (.inl hp)) hwire.symm⟩
  · cases h
    exact ⟨rfl, rfl, Eq.trans (State.wireSoFar_of_data (.inr rfl)) hwire.symm⟩

end

/-- P.GOTDATA ends the frame: dispatched or discarded, the parser is back in WaitSync (R134, R135, R137). -/
theorem pstate_of_execPGotData {s t : State} {b : Byte} {now : Time} (h : execPGotData b now s = .next t) :
    t.pstate = .waitSync := by
  obtain ⟨-, h⟩ := (selected_eq_next_iff _ _ _ _).1 h
  split_ifs at h
  · obtain ⟨-, _, _, _, -, -, -, rfl⟩ := (execPGotCrc_eq_next_iff _ _ _ _).1 h
    rfl
  · cases h
    rfl

section
variable {s t : State} (hs : s.Inv)
include hs

/-- A BYTE step takes its byte into the frame in progress, or comes back to WaitSync. -/
theorem execByte_takes {b : Byte} {now : Time} (h : execByte b now s = .next t) :
    t.pstate = .waitSync ∨ s.Takes b t := by
  rcases (execByte_eq_next_iff b now s t).1 h with h | h | h | h | h | h | h
  · exact execPWaitSync_takes hs h
  · exact execPGotSync_takes h
  · exact execPGotMsgType_takes hs h
  · exact .inr (execPGotLength_takes hs h)
  · exact .inr (execPGotObjID_takes hs h)
  · exact .inr (execPGotInstID_takes hs h)
  · exact .inl (pstate_of_execPGotData h)

variable (hsum : s.ChecksumOk)
include hsum

/-- A byte step keeps the checksum invariant: the byte is folded and held, or nothing is held. -/
theorem byteStep_checksumOk {i : Instr} (hi : isByteStep i = true) (h : exec i s = .next t) : t.ChecksumOk := by
  have ht : t.Inv := byteStep_inv hs hi h
  rcases byteStep_cases hi h with ⟨b, now, hb⟩ | ⟨b, now, hb⟩
  · rcases execByte_takes hs hb with hwait | htakes
    · exact ht.checksumOk_of_waitSync hwait
    · exact htakes.checksumOk hsum
  · obtain ⟨-, _, _, _, -, -, -, rfl⟩ := (execPGotCrc_eq_next_iff b now s t).1 hb
    exact ht.checksumOk_of_waitSync rfl

omit hs in
/-- TICK keeps it: it writes neither `crc` nor what the parser holds. -/
theorem execTick_checksumOk {now : Time} (h : execTick now s = .next t) : t.ChecksumOk := by
  obtain ⟨c, x, out, rfl⟩ := execTick_writes h
  exact hsum

/-- The BYTE steps of a READ keep it, one after the other. -/
theorem feedBytes_checksumOk {bytes : List Byte} {now : Time} {outs : List Output}
    (h : feedBytes now bytes s = .next (t, outs)) : t.ChecksumOk := by
  induction bytes generalizing s outs with
  | nil => cases h; exact hsum
  | cons b bs ih =>
    obtain ⟨u, v, outs', hbyte, hfeed, heq⟩ := (feedBytes_cons_eq_next_iff now b bs s _).1 h
    cases heq
    have hu : exec (.byte b now) s = .next u := hbyte
    exact ih (byteStep_inv hs rfl hu) (byteStep_checksumOk hs hsum rfl hu) hfeed

/-- READ keeps it. -/
theorem execRead_checksumOk {bytes : List Byte} {now : Time} (h : execRead bytes now s = .next t) : t.ChecksumOk := by
  obtain ⟨u, outs, v, hfeed, htick, rfl⟩ := (execRead_eq_next_iff bytes now s t).1 h
  have hv : v.ChecksumOk := execTick_checksumOk (feedBytes_checksumOk hs hsum hfeed) htick
  exact hv

/-- Every instruction but a sub-operation keeps the checksum invariant. -/
theorem exec_checksumOk {i : Instr} (hi : isSubOp i = false) (h : exec i s = .next t) : t.ChecksumOk := by
  cases hbyte : isByteStep i with
  | true => exact byteStep_checksumOk hs hsum hbyte h
  | false =>
    rcases exec_eq_next_of_event hbyte hi h with
      ⟨-, rfl⟩ | ⟨now, -, htick⟩ | ⟨-, rfl⟩ | ⟨-, rfl⟩ | ⟨bytes, now, -, hread⟩
    · exact hsum
    · exact execTick_checksumOk hsum htick
    · exact hsum
    · rfl
    · exact execRead_checksumOk hs hsum hread

end

/-- Settles O55: a byte step folds the byte it takes, every other event leaves `crc` and the frame alone or begins anew,
and what the decoder gives is no sub-operation. -/
theorem stepKeepsTheChecksum : Obligations.StepKeepsTheChecksum := by
  unfold Obligations.StepKeepsTheChecksum
  intro s t hs hsum h
  rcases step_eq_next_cases h with rfl | ⟨i, rest, hi, hexec⟩
  · exact hsum
  · have hinv : State.Inv { s with input := rest } := hs
    have hcrc : State.ChecksumOk { s with input := rest } := hsum
    exact exec_checksumOk hinv hcrc hi hexec

end Sys2Proof.Machine

namespace Sys2Proof.Machine

/-! ## QUERY, and which micro-operation a BYTE runs (R120, R140)

`execByte_of_<state>` is BYTE in that parser state. -/

/-- A micro-operation that pstate does not select is refused by name (R120). -/
theorem selected_of_ne {p : PState} {s : State} (hp : s.pstate ≠ p) (r : Result) :
    selected p s r = .refused (.notSelected s.pstate) := if_neg hp

/-- Settles O12: QUERY is one record update that reads pstate and cstate only; the invariant excludes GotCrc, and the
state RESET answers is `State.resetAll`. -/
theorem queryReturnsTheTwoStates : Obligations.QueryReturnsTheTwoStates := by
  unfold Obligations.QueryReturnsTheTwoStates
  refine fun s => ⟨_, rfl, rfl, rfl, ?_, ?_⟩
  · rintro ⟨-, hnot, -⟩ hquery
    obtain ⟨hcrc, -⟩ := Prod.mk.inj (Option.some.inj hquery)
    exact hnot hcrc
  · intro r hr
    cases hr
    rfl

/-- Settles O16: `selected` refuses by name, and BYTE faults in its GotCrc branch. -/
theorem unselectedMicroOperationIsRefused : Obligations.UnselectedMicroOperationIsRefused := by
  unfold Obligations.UnselectedMicroOperationIsRefused
  exact fun b now s => ⟨(selected_of_ne · _), (selected_of_ne · _), (selected_of_ne · _), (selected_of_ne · _),
    (selected_of_ne · _), (selected_of_ne · _), (selected_of_ne · _), (selected_of_ne · _),
    fun hp => by simp only [exec, execByte, hp]⟩

section
variable {s : State} {first len : Half} {v : Word} (b : Byte) (now : Time)

theorem execByte_of_waitSync (hp : s.pstate = .waitSync) : execByte b now s = execPWaitSync b now s := by
  simp only [execByte, hp]

theorem execByte_of_gotSync (hp : s.pstate = .gotSync) : execByte b now s = execPGotSync b now s := by
  simp only [execByte, hp]

theorem execByte_of_gotMsgType (hp : s.pstate = .gotMsgType) : execByte b now s = execPGotMsgType b now s := by
  simp only [execByte, hp]

theorem execByte_of_gotLength (hp : s.pstate = .gotLength) : execByte b now s = execPGotLength b now s := by
  simp only [execByte, hp]

theorem execByte_of_gotObjID (hp : s.pstate = .gotObjID) : execByte b now s = execPGotObjID b now s := by
  simp only [execByte, hp]

theorem execByte_of_gotInstID (hp : s.pstate = .gotInstID) : execByte b now s = execPGotInstID b now s := by
  simp only [execByte, hp]

theorem execByte_of_gotData (hp : s.pstate = .gotData) : execByte b now s = execPGotData b now s := by
  simp only [execByte, hp]

/-! ## Each micro-operation in each of its cases (R121 to R135) -/

/-- R121. -/
theorem execPWaitSync_of_eq (hp : s.pstate = .waitSync) (hb : b = s.cfg.syncVal) :
    execPWaitSync b now s = .next
      { s.accept b with crc := crcUpdate s.cfg.crc s.cfg.crc.init b, pstate := .gotSync, cnt := 0 } := by
  rw [execPWaitSync, selected_of_pstate hp, if_pos hb]

/-- R122. -/
theorem execPWaitSync_of_ne (hp : s.pstate = .waitSync) (hb : b ≠ s.cfg.syncVal) :
    execPWaitSync b now s =
      .next { s with out := { err := some .syncMismatch, status := some .idle }, res := .nothing } := by
  rw [execPWaitSync, selected_of_pstate hp, if_neg hb]

/-- R123. -/
theorem execPGotSync_of_legal (hp : s.pstate = .gotSync) (hb : legalMsgType s.cfg b = true) :
    execPGotSync b now s = .next { s.accept b with fType := some b, cnt := 0, pstate := .gotMsgType } := by
  rw [execPGotSync, selected_of_pstate hp, if_pos hb]

/-- R124. -/
theorem execPGotSync_of_illegal (hp : s.pstate = .gotSync) (hb : ¬legalMsgType s.cfg b = true) :
    execPGotSync b now s = .next (s.discard .unsupportedMsgType) := by
  rw [execPGotSync, selected_of_pstate hp, if_neg hb]

/-- R125. -/
theorem execPGotMsgType_first (hp : s.pstate = .gotMsgType) (h0 : s.cnt = 0) :
    execPGotMsgType b now s = .next { s.accept b with fLen := some (b.setWidth 16), cnt := 1 } := by
  rw [execPGotMsgType, selected_of_pstate hp, if_pos h0]

/-- R126 and R127. -/
theorem execPGotMsgType_second (hp : s.pstate = .gotMsgType) (h1 : s.cnt = 1)
    (hfirst : s.fLen = some first) :
    execPGotMsgType b now s =
      if legalLength s.cfg (lengthOf s.cfg.byteOrder first b) then
        .next { s.accept b with fLen := some (lengthOf s.cfg.byteOrder first b), cnt := 0, pstate := .gotLength }
      else .next (s.discard .lengthOutOfRange) := by
  rw [execPGotMsgType, selected_of_pstate hp, if_neg (by simp [h1]), if_pos h1, hfirst, need_some]

/-- The register of the field in progress takes the next byte: the first byte does not read it (R76). -/
theorem asmReg_eq_some_asmStep {w : Nat} (o : ByteOrder) {k : Nat} {r : Option (BitVec w)} {v : BitVec w}
    (h0 : k = 0 → v = 0) (hk : k ≠ 0 → r = some v) : asmReg o k r b = some (asmStep o k v b) := by
  unfold asmReg
  split_ifs with h
  · rw [h, h0 h]
  · rw [hk h, Option.map_some]

/-- R128: one of the first three ObjID bytes. -/
theorem execPGotLength_of_lt (hp : s.pstate = .gotLength) (hcnt : s.cnt.toNat < 3)
    (hv : asmReg s.cfg.byteOrder s.cnt.toNat s.fObjid b = some v) :
    execPGotLength b now s = .next { s.accept b with fObjid := some v, cnt := s.cnt + 1 } := by
  rw [execPGotLength, selected_of_pstate hp, if_pos hcnt.le, hv, need_some, if_pos hcnt]

/-- R129 where H = 10. -/
theorem execPGotLength_last_of_ten (hp : s.pstate = .gotLength) (h3 : s.cnt = 3) (h10 : s.cfg.h = 10)
    (hv : asmReg s.cfg.byteOrder s.cnt.toNat s.fObjid b = some v) :
    execPGotLength b now s = .next { s.accept b with fObjid := some v, cnt := 0, pstate := .gotObjID } := by
  rw [execPGotLength, selected_of_pstate hp, if_pos (by simp [h3]), hv, need_some, if_neg (by simp [h3]), if_pos h10]

/-- R129 where H is not 10: there is no InstID, and the header ends (R131). -/
theorem execPGotLength_last_of_ne_ten (hp : s.pstate = .gotLength) (h3 : s.cnt = 3) (h10 : s.cfg.h ≠ 10)
    (hv : asmReg s.cfg.byteOrder s.cnt.toNat s.fObjid b = some v) (hlen : s.fLen = some len) :
    execPGotLength b now s =
      .next (({ s.accept b with fObjid := some v, fInstid := some 0 } : State).endHeader len) := by
  rw [execPGotLength, selected_of_pstate hp, if_pos (by simp [h3]), hv, need_some, if_neg (by simp [h3]),
    if_neg h10, hlen, need_some]

/-- R130: the first InstID byte. -/
theorem execPGotObjID_first (hp : s.pstate = .gotObjID) (h0 : s.cnt = 0) :
    execPGotObjID b now s = .next { s.accept b with fInstid := some (b.setWidth 16), cnt := 1 } := by
  rw [execPGotObjID, selected_of_pstate hp, if_pos h0]

/-- R130 and R131: the second InstID byte. -/
theorem execPGotObjID_second (hp : s.pstate = .gotObjID) (h1 : s.cnt = 1)
    (hfirst : s.fInstid = some first) (hlen : s.fLen = some len) :
    execPGotObjID b now s = .next
      (({ s.accept b with fInstid := some (asmStep s.cfg.byteOrder 1 first b) } : State).endHeader len) := by
  rw [execPGotObjID, selected_of_pstate hp, if_neg (by simp [h1]), if_pos h1, hfirst, asmReg,
    if_neg one_ne_zero, Option.map_some, need_some, hlen, need_some]

/-- R132 and R133. -/
theorem execPGotInstID_of_lt (hp : s.pstate = .gotInstID) (hlen : s.fLen = some len)
    (hcnt : s.cnt.toNat < dlenOf s.cfg len) (hcell : s.cnt.toNat < 255) :
    execPGotInstID b now s = .next
      { s.accept b with
        dbuf := Memory.write s.dbuf s.cnt.toNat b
        cnt := if s.cnt.toNat + 1 < dlenOf s.cfg len then s.cnt + 1 else 0
        pstate := if s.cnt.toNat + 1 < dlenOf s.cfg len then .gotInstID else .gotData } := by
  rw [execPGotInstID, selected_of_pstate hp, hlen, need_some, if_pos (Nat.succ_le_of_lt hcnt), if_pos hcell]
  dsimp only
  split_ifs
  · rw [← hp]
    rfl
  · rfl

/-- R134. -/
theorem execPGotData_of_eq (hp : s.pstate = .gotData) (hb : b = s.crcByte) :
    execPGotData b now s = execPGotCrc b now s.matched := by
  rw [execPGotData, selected_of_pstate hp, if_pos hb]

/-- R135. -/
theorem execPGotData_of_ne (hp : s.pstate = .gotData) (hb : b ≠ s.crcByte) :
    execPGotData b now s = .next (s.discard .crcMismatch) := by
  rw [execPGotData, selected_of_pstate hp, if_neg hb]

end

/-- Settles O19: the two cases of P.WAITSYNC. -/
theorem waitSyncComparesWithTheMarker : Obligations.WaitSyncComparesWithTheMarker := by
  unfold Obligations.WaitSyncComparesWithTheMarker
  exact fun b now s hp => ⟨execPWaitSync_of_eq b now hp, execPWaitSync_of_ne b now hp⟩

/-- Settles O20: the condition of R123 is that of a legal MsgType. -/
theorem gotSyncChecksTheMsgType : Obligations.GotSyncChecksTheMsgType := by
  unfold Obligations.GotSyncChecksTheMsgType
  exact fun b now s hp => ⟨fun hb => execPGotSync_of_legal b now hp ((legalMsgType_iff _ b).2 hb),
    fun hb => execPGotSync_of_illegal b now hp (hb ∘ (legalMsgType_iff _ b).1)⟩

/-- Settles O29: each row is the BYTE step of its byte, which in GotSync is P.GOTSYNC. -/
theorem msgTypeBytesInGotSync : Obligations.MsgTypeBytesInGotSync := by
  unfold Obligations.MsgTypeBytesInGotSync
  intro now s hp
  have htaken (m : Byte) (hm : legalMsgType s.cfg m = true) :=
    (execByte_of_gotSync m now hp).trans (execPGotSync_of_legal m now hp hm)
  exact ⟨⟨htaken _, htaken _, htaken _, htaken _, htaken _⟩, fun b hb =>
    (execByte_of_gotSync b now hp).trans (execPGotSync_of_illegal b now hp (by simp [hb]))⟩

/-- Settles O21: P.GOTMSGTYPE with no Length byte taken. -/
theorem firstLengthByteIsTaken : Obligations.FirstLengthByteIsTaken := by
  unfold Obligations.FirstLengthByteIsTaken
  exact fun b now s hp h0 => execPGotMsgType_first b now hp h0

/-- Settles O22: the value completed is `lengthOf`, and the range is that of a legal Length. -/
theorem secondLengthByteIsChecked : Obligations.SecondLengthByteIsChecked := by
  unfold Obligations.SecondLengthByteIsChecked
  intro b now s first v hp h1 hfirst hv
  have hv' : v = lengthOf s.cfg.byteOrder first b := hv
  have hstep := execPGotMsgType_second b now hp h1 hfirst
  rw [← hv'] at hstep
  refine ⟨fun hrange => hstep.trans (if_pos ?_), fun hrange => hstep.trans (if_neg ?_)⟩
  · simpa [legalLength] using hrange
  · simp only [legalLength, Bool.and_eq_true, decide_eq_true_eq]
    omega

/-- Settles O23: the register takes the byte by `asmStep`, and the count says which of the three cases it is. -/
theorem objIdBytesAreTaken : Obligations.ObjIdBytesAreTaken := by
  unfold Obligations.ObjIdBytesAreTaken
  intro b now s len id hp hcnt hlen h0 hk
  have hv : asmReg s.cfg.byteOrder s.cnt.toNat s.fObjid b = some (asmStep s.cfg.byteOrder s.cnt.toNat id b) :=
    asmReg_eq_some_asmStep b _ (fun h => h0 (BitVec.eq_of_toNat_eq h)) fun h => hk fun hc => h (by rw [hc]; rfl)
  refine ⟨fun hlt => execPGotLength_of_lt b now hp hlt hv, fun h3 h10 => ?_, fun h3 h8 => ?_⟩
  · have hstep := execPGotLength_last_of_ten b now hp h3 h10 hv
    rw [h3] at hstep
    exact hstep
  · have hstep := execPGotLength_last_of_ne_ten b now hp h3 (by simp [h8]) hv hlen
    have hdlen : dlenOf s.cfg len = 0 ↔ len - 8 = 0 := by simp [dlenOf, h8, BitVec.toNat_eq]
    simp only [State.endHeader, State.accept_cfg, hdlen] at hstep
    rw [h3] at hstep
    exact hstep

/-- Settles O25: the two cases of P.GOTOBJID. -/
theorem instIdBytesAreTaken : Obligations.InstIdBytesAreTaken := by
  unfold Obligations.InstIdBytesAreTaken
  exact fun b now s hp => ⟨execPGotObjID_first b now hp, fun first len h1 hfirst hlen =>
    execPGotObjID_second b now hp h1 hfirst hlen⟩

/-- Settles O26: the buffer written is `Memory.write` of the cell `cnt`. -/
theorem dataByteGoesToItsCell : Obligations.DataByteGoesToItsCell := by
  unfold Obligations.DataByteGoesToItsCell
  exact fun b now s len hp hlen hcnt hcell => ⟨Memory.write s.dbuf s.cnt.toNat b,
    execPGotInstID_of_lt b now hp hlen hcnt hcell, Memory.read_write_same _ _ b,
    fun a ha => Memory.read_write_other _ b ha, Memory.write_wf _ _ b⟩

/-- Settles O27: the discard case of P.GOTDATA. -/
theorem crcMismatchDiscardsTheFrame : Obligations.CrcMismatchDiscardsTheFrame := by
  unfold Obligations.CrcMismatchDiscardsTheFrame
  exact fun b now s hp hb => execPGotData_of_ne b now hp hb

end Sys2Proof.Machine

namespace Sys2Proof.Machine

/-! ## What a dispatch step reports (R136, R150, R173) -/

/-- The dispatcher keeps the status, sets its result, and reports an error for an unknown ObjID only (R152, R153,
R158). -/
theorem dispatchObject_out {s t : State} (h : dispatchObject s = .next t) :
    t.out.status = s.out.status ∧ t.out.dres.isSome = true ∧
      t.out.err = if t.out.dres = some .unknown then some .unknownObjID else s.out.err := by
  obtain ⟨_, len, _, _, ⟨_, rfl⟩ | ⟨d, _, ⟨hfit, rfl⟩ | ⟨_, _, _, _, rfl⟩⟩⟩ := dispatchObject_cases s t h
  · exact ⟨rfl, rfl, rfl⟩
  · simp [State.noteLookup, hfit]
  · exact ⟨rfl, rfl, rfl⟩

/-- C.STATS adds the peer status, and may add a connection event and a request (R176). -/
theorem State.takeStats_out_eq (s : State) (ps : Byte) (now : Time) :
    ∃ cev tx, (s.takeStats ps now).out = { s.out with stats := some ps, cev := cev, tx := tx } := by
  rcases s.takeStats_cases ps now with ⟨_, h⟩ | ⟨_, _, h⟩ | ⟨_, _, h⟩
  · exact ⟨_, _, congrArg State.out h⟩
  · exact ⟨_, _, congrArg State.out h⟩
  · exact ⟨_, _, congrArg State.out h⟩

/-- C.FRAME raises activity, and writes no output but those of the Connection State Machine (R173). -/
theorem State.takeFrame_out_eq (s : State) (objid : Word) (data : List Byte) (now : Time) :
    ∃ stats cev tx, (s.takeFrame objid data now).out =
      { s.out with activity := true, stats := stats, cev := cev, tx := tx } := by
  rcases s.takeFrame_cases objid data now with ⟨_, h⟩ | ⟨ps, _, h⟩
  · exact ⟨_, _, _, congrArg State.out h⟩
  · obtain ⟨cev, tx, hout⟩ := State.takeStats_out_eq { s with out := { s.out with activity := true } } ps now
    exact ⟨_, cev, tx, h ▸ hout⟩

/-- C.FRAME reads only the configuration, the passive flag and its own registers (R173, R176). -/
theorem State.takeFrame_sameConn {s u : State} (hcontrol : SameControl s u) (hconn : SameConn s u) (objid : Word)
    (data : List Byte) (now : Time) : SameConn (s.takeFrame objid data now) (u.takeFrame objid data now) := by
  obtain ⟨hcfg, hpassive, -⟩ := hcontrol
  unfold State.takeFrame
  rw [hcfg]
  cases statsOf s.cfg objid data with
  | none => exact hconn
  | some ps =>
    obtain ⟨hcstate, -, htx⟩ := hconn
    simp only [State.takeStats, hcstate, hpassive]
    split_ifs
    · exact ⟨rfl, rfl, htx⟩
    · exact ⟨rfl, rfl, htx⟩
    · exact ⟨rfl, rfl, rfl⟩

/-- The dispatch step of the frame `f` from `s` on: the frame is emitted whole, dispatched, given to the Connection
State Machine, and forgotten (R136, R137, R173). -/
structure Dispatches (s : State) (f : Frame) (now : Time) (t : State) : Prop where
  forgotten : ∃ u : State, t = u.toWaitSync
  control : SameControl s t
  conn : SameConn (s.takeFrame f.objid f.data now) t
  frame : t.out.frame = some f
  activity : t.out.activity = true
  status : t.out.status = s.out.status
  dres : t.out.dres.isSome = true
  err : t.out.err = if t.out.dres = some .unknown then some .unknownObjID else s.out.err

/-- Registers and Data buffer hold one frame only. -/
theorem FrameHeld.unique {s : State} {f g : Frame} (hf : FrameHeld s f) (hg : FrameHeld s g) (hcrc : f.crc = g.crc) :
    f = g := by
  obtain ⟨type, len, objid, instid, data, crc⟩ := f
  obtain ⟨type', len', objid', instid', data', crc'⟩ := g
  simp only [FrameHeld] at hf hg hcrc
  grind

/-- What P.GOTCRC answers is the dispatch step of the frame held, the byte being its Crc byte. -/
theorem dispatches_of_execPGotCrc {b : Byte} {now : Time} {s t : State} {f : Frame} (hf : FrameHeld s f)
    (hcrc : f.crc = b) (h : execPGotCrc b now s = .next t) : Dispatches s f now t := by
  obtain ⟨-, s1, s2, s3, hemit, hdispatch, hframe, rfl⟩ := (execPGotCrc_eq_next_iff b now s t).1 h
  obtain ⟨g, hg, hgcrc, rfl⟩ := (emitFrame_eq_next_iff b s s1).1 hemit
  obtain rfl := hf.unique hg (hcrc.trans hgcrc.symm)
  obtain ⟨hstatus, hdres, herr⟩ := dispatchObject_out hdispatch
  have hkept := dispatchObject_frame hdispatch
  obtain ⟨snap, out, rfl, -⟩ := dispatchObject_writes hdispatch
  obtain ⟨objid, len, data, ho, hl, hd, rfl⟩ := (execCFrame_eq_next_iff now _ s3).1 hframe
  obtain ⟨-, hl', ho', -, hd'⟩ := hf
  cases ho'.symm.trans ho
  cases hl'.symm.trans hl
  cases hd'.symm.trans hd
  obtain ⟨stats, cev, tx, hout⟩ := State.takeFrame_out_eq { s with snap := snap, out := out } f.objid f.data now
  have hconn := State.takeFrame_sameConn (s := s) (u := { s with snap := snap, out := out }) ⟨rfl, rfl, rfl⟩
    ⟨rfl, rfl, rfl⟩ f.objid f.data now
  refine ⟨⟨_, rfl⟩, (execPGotCrc_writes h).control, hconn, (congrArg Output.frame hout).trans hkept,
    congrArg Output.activity hout, (congrArg Output.status hout).trans hstatus,
    (congrArg (·.dres.isSome) hout).trans hdres, ?_⟩
  rw [State.toWaitSync_out, hout]
  exact herr

/-! ## A frame held is dispatched (R134, R136, R150) -/

/-- Fields that lie inside the Data read can all be extracted, each to its own slot (R153, R154, R157). Of the Data
buffer only the read is asked, not its canonical form. -/
theorem exists_extractAll_of_readBytes (cfg : Config) {dbuf : Memory Byte} {n : Nat} {data : List Byte}
    (hd : Memory.readBytes dbuf 0 n = some data) (fs : List FieldEntry)
    (hfit : ∀ f ∈ fs, f.off + widthBytes f.width ≤ n) :
    ∃ pairs, extractAll cfg dbuf fs = some pairs ∧ pairs.map (·.1) = fs.map (·.slot) := by
  induction fs with
  | nil => exact ⟨[], rfl, rfl⟩
  | cons f fs ih =>
    rw [List.forall_mem_cons] at hfit
    obtain ⟨hf, hfs⟩ := hfit
    obtain ⟨pairs, hpairs, hslots⟩ := ih hfs
    have hread := Memory.readBytes_slice hd hf
    rw [Nat.zero_add] at hread
    obtain ⟨v, hv⟩ : ∃ v, extractField cfg dbuf f = some v := ⟨_, by rw [extractField, hread, Option.map_some]⟩
    exact ⟨(f.slot, v) :: pairs, by simp only [extractAll, hv, hpairs],
      by simp only [List.map_cons, hslots]⟩

section
variable {s : State} {objid : Word} {len : Half} {d : Descriptor} (ho : s.fObjid = some objid) (hl : s.fLen = some len)
include ho hl

/-- The dispatcher on an ObjID that no descriptor has (R152). -/
theorem dispatchObject_of_unknown (hhit : lookup s.cfg.desc objid = none) :
    dispatchObject s = .next { s with out := { s.out with dres := some .unknown, err := some .unknownObjID } } := by
  have h : dispatchObject s = .next (s.noteLookup none (dlenOf s.cfg len)) := by
    simp only [dispatchObject, ho, hl, need_some, hhit]
  exact h

/-- The dispatcher on a frame too short for its descriptor (R153). -/
theorem dispatchObject_of_short (hhit : lookup s.cfg.desc objid = some d) (hfit : fits d (dlenOf s.cfg len) = false) :
    dispatchObject s = .next { s with out := { s.out with dres := some .short } } := by
  simp only [dispatchObject, ho, hl, need_some, hhit, State.noteLookup, hfit, Bool.false_eq_true, if_false]

/-- The dispatcher on a frame that holds every field (R154, R157, R158). -/
theorem dispatchObject_of_fits (hhit : lookup s.cfg.desc objid = some d) (hfit : fits d (dlenOf s.cfg len) = true)
    {pairs : List (Nat × Word)} (hpairs : extractAll s.cfg s.dbuf d.fields = some pairs)
    (hslots : ∀ p ∈ pairs, p.1 < s.cfg.nSlots) : dispatchObject s = .next (s.publish pairs) := by
  have hexist : pairs.all (fun p => decide (p.1 < s.cfg.nSlots)) = true := by simpa using hslots
  simp only [dispatchObject, ho, hl, need_some, hhit, hfit, if_true, hpairs, execDPublish, hexist]

end

/-- The dispatcher answers a next state on any frame held (R150). -/
theorem exists_dispatchObject_of_frameHeld {s : State} {f : Frame} (hc : configProblem s.cfg = none)
    (hf : FrameHeld s f) : ∃ t, dispatchObject s = .next t := by
  obtain ⟨-, hl, ho, -, hdata⟩ := hf
  cases hhit : lookup s.cfg.desc f.objid with
  | none => exact ⟨_, dispatchObject_of_unknown ho hl hhit⟩
  | some d =>
    cases hfit : fits d (dlenOf s.cfg f.length) with
    | false => exact ⟨_, dispatchObject_of_short ho hl hhit hfit⟩
    | true =>
      obtain ⟨pairs, hpairs, hslots⟩ :=
        exists_extractAll_of_readBytes s.cfg hdata d.fields (by simpa [fits] using hfit)
      refine ⟨_, dispatchObject_of_fits ho hl hhit hfit hpairs fun p hp => ?_⟩
      obtain ⟨e, he, hep⟩ := List.mem_map.1 (hslots ▸ List.mem_map_of_mem hp)
      exact hep ▸ slot_lt_of_wellFormed hc (List.mem_of_find?_eq_some hhit) he

/-- P.GOTCRC dispatches the frame held (R136, R137). -/
theorem execPGotCrc_of_frameHeld {b : Byte} {s : State} {f : Frame} (hc : configProblem s.cfg = none)
    (hf : FrameHeld s f) (hcrc : f.crc = b) (hp : s.pstate = .gotCrc) (now : Time) :
    ∃ t, execPGotCrc b now s = .next t ∧ Dispatches s f now t := by
  have hemit := (emitFrame_eq_next_iff b s _).2 ⟨f, hf, hcrc, rfl⟩
  obtain ⟨s2, hdispatch⟩ := exists_dispatchObject_of_frameHeld
    (s := { s with out := { s.out with frame := some f } }) hc hf
  obtain ⟨snap, out, rfl, -⟩ := dispatchObject_writes hdispatch
  obtain ⟨-, hl, ho, -, hdata⟩ := id hf
  have hframe := (execCFrame_eq_next_iff now { s with snap := snap, out := out } _).2
    ⟨f.objid, f.length, f.data, ho, hl, hdata, rfl⟩
  have h := (execPGotCrc_eq_next_iff b now s _).2 ⟨hp, _, _, _, hemit, hdispatch, hframe, rfl⟩
  exact ⟨_, h, dispatches_of_execPGotCrc hf hcrc h⟩

/-- Settles O28: P.GOTCRC on the frame held is its dispatch step, from the state in which P.GOTDATA hands it over and
from any other. -/
theorem crcMatchDispatchesTheFrame : Obligations.CrcMatchDispatchesTheFrame := by
  unfold Obligations.CrcMatchDispatchesTheFrame
  intro b now s f hc hf hcrc ended
  have hcframe : exec (.cFrame now) s = .next (s.takeFrame f.objid f.data now) := by
    obtain ⟨-, hl, ho, -, hdata⟩ := hf
    exact (execCFrame_eq_next_iff now s _).2 ⟨_, _, _, ho, hl, hdata, rfl⟩
  have hended (u t : State) (hcontrol : SameControl s u) (hconn : SameConn s u) (h : Dispatches u f now t) :
      ended t := by
    have hst : SameControl s t := hcontrol.trans h.control
    obtain ⟨w, rfl⟩ := h.forgotten
    have hcrcInit : w.toWaitSync.crc = s.cfg.crc.init := congrArg (·.crc.init) hst.1
    obtain ⟨hc1, hl1, ht1⟩ := State.takeFrame_sameConn hcontrol hconn f.objid f.data now
    obtain ⟨hc2, hl2, ht2⟩ := h.conn
    exact ⟨rfl, rfl, hcrcInit, rfl, rfl, rfl, rfl, fun _ => rfl, h.frame, h.activity, h.dres, hst, _, hcframe,
      hc2.trans hc1, hl2.trans hl1, ht2.trans ht1⟩
  refine ⟨fun hp hb => ?_, fun hp => ?_⟩
  · obtain ⟨t, ht, hdisp⟩ := execPGotCrc_of_frameHeld (s := s.matched) hc hf hcrc rfl now
    exact ⟨t, (execPGotData_of_eq b now hp hb).trans ht, ht, hdisp.status, hdisp.err,
      hended s.matched t ⟨rfl, rfl, rfl⟩ ⟨rfl, rfl, rfl⟩ hdisp⟩
  · obtain ⟨t, ht, hdisp⟩ := execPGotCrc_of_frameHeld hc hf hcrc hp now
    exact ⟨t, ht, hdisp.status, hended s t ⟨rfl, rfl, rfl⟩ ⟨rfl, rfl, rfl⟩ hdisp⟩

end Sys2Proof.Machine

namespace Sys2Proof.Machine

/-! ## Where a BYTE step goes, and with which status (R138, R141) -/

/-- A BYTE step that took its byte into the frame in progress, and left the parser in one of the given states. -/
abbrev TakenTo (ps : List PState) (t : State) : Prop :=
  t.out = { status := some .frameInProgress } ∧ t.pstate ∈ ps

section
variable {s t : State} {b : Byte} {now : Time}

/-- P.WAITSYNC begins a frame, or is idle (R121, R122). -/
theorem execPWaitSync_outcome (h : execPWaitSync b now s = .next t) :
    TakenTo [.gotSync] t ∨ t.out.status = some .idle ∧ t.pstate = .waitSync := by
  obtain ⟨hp, h⟩ := (selected_eq_next_iff _ _ _ _).1 h
  split_ifs at h
  · cases h; exact .inl ⟨rfl, by simp⟩
  · cases h; exact .inr ⟨rfl, hp⟩

/-- P.GOTSYNC takes its byte, or discards (R123, R124). -/
theorem execPGotSync_outcome (h : execPGotSync b now s = .next t) : TakenTo [.gotMsgType] t ∨ ∃ e, t = s.discard e := by
  obtain ⟨-, h⟩ := (selected_eq_next_iff _ _ _ _).1 h
  split_ifs at h
  · cases h; exact .inl ⟨rfl, by simp⟩
  · cases h; exact .inr ⟨_, rfl⟩

/-- P.GOTMSGTYPE takes its byte, or discards (R125 to R127). -/
theorem execPGotMsgType_outcome (h : execPGotMsgType b now s = .next t) :
    TakenTo [.gotMsgType, .gotLength] t ∨ ∃ e, t = s.discard e := by
  obtain ⟨hp, h⟩ := (selected_eq_next_iff _ _ _ _).1 h
  split_ifs at h
  · cases h; exact .inl ⟨rfl, by simp [hp]⟩
  · obtain ⟨first, -, h⟩ := (need_eq_next_iff _ _ _ _).1 h
    dsimp only at h
    split_ifs at h
    · cases h; exact .inl ⟨rfl, by simp⟩
    · cases h; exact .inr ⟨_, rfl⟩

/-- The end of the header goes to GotInstID or GotData (R131). -/
theorem State.endHeader_pstate_mem (s : State) (len : Half) :
    (s.endHeader len).pstate ∈ [PState.gotInstID, .gotData] := by
  rw [State.endHeader_pstate]
  split_ifs <;> simp

/-- P.GOTLENGTH takes its byte (R128, R129, R131). -/
theorem execPGotLength_outcome (h : execPGotLength b now s = .next t) :
    TakenTo [.gotLength, .gotObjID, .gotInstID, .gotData] t := by
  obtain ⟨hp, h⟩ := (selected_eq_next_iff _ _ _ _).1 h
  split_ifs at h
  · obtain ⟨objid, -, h⟩ := (need_eq_next_iff _ _ _ _).1 h
    cases h; exact ⟨rfl, by simp [hp]⟩
  · obtain ⟨objid, -, h⟩ := (need_eq_next_iff _ _ _ _).1 h
    cases h; exact ⟨rfl, by simp⟩
  · obtain ⟨objid, -, h⟩ := (need_eq_next_iff _ _ _ _).1 h
    obtain ⟨len, -, h⟩ := (need_eq_next_iff _ _ _ _).1 h
    cases h
    exact ⟨rfl, List.mem_cons_of_mem _ (List.mem_cons_of_mem _ (State.endHeader_pstate_mem _ len))⟩

/-- P.GOTOBJID takes its byte (R130, R131). -/
theorem execPGotObjID_outcome (h : execPGotObjID b now s = .next t) : TakenTo [.gotObjID, .gotInstID, .gotData] t := by
  obtain ⟨hp, h⟩ := (selected_eq_next_iff _ _ _ _).1 h
  split_ifs at h
  · cases h; exact ⟨rfl, by simp [hp]⟩
  · obtain ⟨instid, -, h⟩ := (need_eq_next_iff _ _ _ _).1 h
    obtain ⟨len, -, h⟩ := (need_eq_next_iff _ _ _ _).1 h
    cases h
    exact ⟨rfl, List.mem_cons_of_mem _ (State.endHeader_pstate_mem _ len)⟩

/-- P.GOTINSTID takes its byte (R132, R133). -/
theorem execPGotInstID_outcome (h : execPGotInstID b now s = .next t) : TakenTo [.gotInstID, .gotData] t := by
  obtain ⟨hp, h⟩ := (selected_eq_next_iff _ _ _ _).1 h
  obtain ⟨len, -, h⟩ := (need_eq_next_iff _ _ _ _).1 h
  dsimp only at h
  split_ifs at h
  · cases h; exact ⟨rfl, by simp [hp]⟩
  · cases h; exact ⟨rfl, by simp⟩

/-- P.GOTDATA dispatches the frame held, or discards it (R134, R135). -/
theorem execPGotData_outcome (h : execPGotData b now s = .next t) :
    (∃ f, FrameHeld s f ∧ f.crc = b ∧ Dispatches s.matched f now t) ∨ ∃ e, t = s.discard e := by
  obtain ⟨-, h⟩ := (selected_eq_next_iff _ _ _ _).1 h
  split_ifs at h
  · obtain ⟨-, s1, -, -, hemit, -⟩ := (execPGotCrc_eq_next_iff b now s.matched t).1 h
    obtain ⟨f, hf, hcrc, -⟩ := (emitFrame_eq_next_iff b s.matched s1).1 hemit
    exact .inl ⟨f, hf, hcrc, dispatches_of_execPGotCrc hf hcrc h⟩
  · cases h; exact .inr ⟨_, rfl⟩

/-- Every BYTE step sets the status (R138). -/
theorem execByte_status (h : execByte b now s = .next t) : t.out.status.isSome = true := by
  rcases (execByte_eq_next_iff b now s t).1 h with h | h | h | h | h | h | h
  · obtain ⟨hout, -⟩ | ⟨hstatus, -⟩ := execPWaitSync_outcome h
    · rw [hout]; rfl
    · rw [hstatus]; rfl
  · obtain ⟨hout, -⟩ | ⟨e, rfl⟩ := execPGotSync_outcome h
    · rw [hout]; rfl
    · rfl
  · obtain ⟨hout, -⟩ | ⟨e, rfl⟩ := execPGotMsgType_outcome h
    · rw [hout]; rfl
    · rfl
  · rw [(execPGotLength_outcome h).1]; rfl
  · rw [(execPGotObjID_outcome h).1]; rfl
  · rw [(execPGotInstID_outcome h).1]; rfl
  · obtain ⟨f, -, -, hdisp⟩ | ⟨e, rfl⟩ := execPGotData_outcome h
    · rw [hdisp.status]; rfl
    · rfl

end

/-- Settles O15: BYTE branches on pstate, answers under the invariant, and every answer carries a status. -/
theorem byteRunsTheSelectedMicroOperation : Obligations.ByteRunsTheSelectedMicroOperation := by
  unfold Obligations.ByteRunsTheSelectedMicroOperation
  refine fun b now s => ⟨execByte_of_waitSync b now, execByte_of_gotSync b now, execByte_of_gotMsgType b now,
    execByte_of_gotLength b now, execByte_of_gotObjID b now, execByte_of_gotInstID b now, execByte_of_gotData b now,
    fun hs => ?_⟩
  obtain ⟨t, ht, -⟩ := execByte_answersInv hs b now
  exact ⟨t, ht, execByte_status ht⟩

/-- Settles O59: in each parser state the micro-operation that runs leaves the parser where its outcome lemma says. -/
theorem parserMovesAlongTheEdges : Obligations.ParserMovesAlongTheEdges := by
  unfold Obligations.ParserMovesAlongTheEdges
  intro b now s t h
  cases hp : s.pstate with
  | waitSync =>
    obtain ⟨-, ht⟩ | ⟨-, ht⟩ := execPWaitSync_outcome ((execByte_of_waitSync b now hp).symm.trans h)
    · exact (by decide : ∀ q ∈ _, (_, q) ∈ _) _ ht
    · rw [ht]; decide
  | gotSync =>
    obtain ⟨-, ht⟩ | ⟨e, rfl⟩ := execPGotSync_outcome ((execByte_of_gotSync b now hp).symm.trans h)
    · exact (by decide : ∀ q ∈ _, (_, q) ∈ _) _ ht
    · rw [State.discard_pstate]; decide
  | gotMsgType =>
    obtain ⟨-, ht⟩ | ⟨e, rfl⟩ := execPGotMsgType_outcome ((execByte_of_gotMsgType b now hp).symm.trans h)
    · exact (by decide : ∀ q ∈ _, (_, q) ∈ _) _ ht
    · rw [State.discard_pstate]; decide
  | gotLength =>
    obtain ⟨-, ht⟩ := execPGotLength_outcome ((execByte_of_gotLength b now hp).symm.trans h)
    exact (by decide : ∀ q ∈ _, (_, q) ∈ _) _ ht
  | gotObjID =>
    obtain ⟨-, ht⟩ := execPGotObjID_outcome ((execByte_of_gotObjID b now hp).symm.trans h)
    exact (by decide : ∀ q ∈ _, (_, q) ∈ _) _ ht
  | gotInstID =>
    obtain ⟨-, ht⟩ := execPGotInstID_outcome ((execByte_of_gotInstID b now hp).symm.trans h)
    exact (by decide : ∀ q ∈ _, (_, q) ∈ _) _ ht
  | gotData =>
    rw [pstate_of_execPGotData ((execByte_of_gotData b now hp).symm.trans h)]
    decide
  | gotCrc => simp only [exec, execByte, hp, reduceCtorEq] at h

/-! ## Streams of bytes (R90, R139, R143, R144) -/

/-- One output record for each byte fed (R90). -/
theorem feedBytes_length {now : Time} {bs : List Byte} {s t : State} {outs : List Output}
    (h : feedBytes now bs s = .next (t, outs)) : outs.length = bs.length := by
  induction bs generalizing s outs with
  | nil => cases h; rfl
  | cons b bs ih =>
    obtain ⟨u, v, outs', -, hfeed, heq⟩ := (feedBytes_cons_eq_next_iff now b bs s _).1 h
    cases heq
    rw [List.length_cons, List.length_cons, ih hfeed]

/-- Some step of a READ had the status exactly where their number is not 0. -/
theorem countStatus_ne_zero_iff (x : Status) (outs : List Output) :
    countStatus x outs ≠ 0 ↔ ∃ o ∈ outs, o.status = some x := by
  simp [countStatus, List.countP_eq_zero]

/-- Settles O17: the READ's result is made of its BYTE steps' records, and a count is the length of a filtered list. -/
theorem readIsBytesThenTick : Obligations.ReadIsBytesThenTick := by
  unfold Obligations.ReadIsBytesThenTick
  intro bs now s hs
  obtain ⟨u, outs, hfeed, -⟩ := feedBytes_answersInv hs now bs
  refine ⟨u, outs, _, hfeed, feedBytes_length hfeed, rfl, ?_⟩
  refine (execRead_eq_next_iff bs now s _).2 ⟨u, outs, _, hfeed, rfl, ?_⟩
  simp only [State.answer, readResult, readStatus, countStatus_ne_zero_iff]
  simp only [countStatus, List.countP_eq_length_filter]

/-- Settles O31, by induction on the stream: each byte leaves the parser in WaitSync and every item of state. -/
theorem noSyncStreamStaysInWaitSync : Obligations.NoSyncStreamStaysInWaitSync := by
  unfold Obligations.NoSyncStreamStaysInWaitSync
  intro now bs s hp hbs
  induction bs generalizing s with
  | nil => exact ⟨s, [], rfl, rfl, by simp⟩
  | cons b bs ih =>
    rw [List.forall_mem_cons] at hbs
    obtain ⟨hb, hbs⟩ := hbs
    have hstep := (execByte_of_waitSync b now hp).trans (execPWaitSync_of_ne b now hp hb)
    obtain ⟨t, outs, hfeed, hkept, houts⟩ := ih
      { s with out := { err := some .syncMismatch, status := some .idle }, res := .nothing } hp hbs
    refine ⟨t, _, (feedBytes_cons_eq_next_iff now b bs s _).2 ⟨_, _, _, hstep, hfeed, rfl⟩, ?_, ?_⟩
    · exact congrArg (fun u : State => { u with out := s.out, res := s.res }) hkept
    · exact List.forall_mem_cons.2 ⟨rfl, houts⟩

section
variable {s : State}

/-- The header up to its end is H bytes long (R70). -/
theorem State.length_wireToInstId (hc : configProblem s.cfg = none) (htype : s.fType.isSome = true) :
    s.wireToInstId.length = s.cfg.h := by
  obtain ⟨type, ht⟩ := Option.isSome_iff_exists.1 htype
  rcases header_of_wellFormed hc with h | h <;>
    simp [State.wireToInstId, State.wireToObjId, State.wireToLength, ht, h]

/-- A frame in progress holds at most the H header bytes and 255 Data bytes (R22, R23). -/
theorem State.Inv.length_wireSoFar_le (h : s.Inv) : s.wireSoFar.length ≤ s.cfg.h + 255 := by
  obtain ⟨⟨hcfg, -⟩, hs⟩ := (inv_iff s).1 h
  have hdata (hheader : s.HeaderHeld) (hp : s.pstate = .gotInstID ∨ s.pstate = .gotData) {n : Nat}
      (hkeys : s.dbuf.map (·.1) = List.range n) (hn : n ≤ dlenOf s.cfg (s.fLen.getD 0)) :
      s.wireSoFar.length ≤ s.cfg.h + 255 := by
    obtain ⟨⟨htype, -⟩, ⟨hlen, hlegal⟩, -⟩ := hheader
    obtain ⟨len, hl⟩ := Option.isSome_iff_exists.1 hlen
    rw [hl, Option.getD_some] at hn
    have hle := dlenOf_le hcfg (len := len) (by simpa [hl] using hlegal)
    have hcells : s.dbuf.length = n := by simpa using congrArg List.length hkeys
    simp only [State.wireSoFar_of_data hp, List.length_append, List.length_map,
      State.length_wireToInstId hcfg htype]
    omega
  cases hp : s.pstate with simp only [State.ParserInv, hp] at hs
  | waitSync => simp [State.wireSoFar_of_waitSync hp]
  | gotSync => simp [State.wireSoFar_of_gotSync hp]
  | gotMsgType =>
    obtain ⟨hcnt, -⟩ := hs
    have htype := Option.length_toList_le (o := s.fType)
    simp only [State.wireSoFar_of_gotMsgType hp, List.length_append, List.length_singleton, length_bytesOf]
    omega
  | gotLength =>
    obtain ⟨hcnt, -⟩ := hs
    have htype := Option.length_toList_le (o := s.fType)
    simp only [State.wireSoFar_of_gotLength hp, State.wireToLength, List.length_append, List.length_singleton,
      length_bytesOf]
    omega
  | gotObjID =>
    obtain ⟨h10, hcnt, -⟩ := hs
    have htype := Option.length_toList_le (o := s.fType)
    simp only [State.wireSoFar_of_gotObjID hp h10, State.wireToObjId, State.wireToLength, List.length_append,
      List.length_singleton, length_bytesOf]
    omega
  | gotInstID =>
    obtain ⟨hheader, hcnt, hkeys⟩ := hs
    exact hdata hheader (.inl hp) hkeys hcnt.le
  | gotData =>
    obtain ⟨-, hheader, hkeys⟩ := hs
    exact hdata hheader (.inr hp) hkeys le_rfl

/-- Where more bytes come than a frame in progress can still take, the parser is back in WaitSync after one of them:
each byte ends the frame or is held (R143). -/
theorem exists_take_waitSync (now : Time) (bs : List Byte) (hs : s.Inv)
    (hlen : s.cfg.h + 255 < s.wireSoFar.length + bs.length) :
    ∃ k t outs, 1 ≤ k ∧ s.wireSoFar.length + k ≤ s.cfg.h + 256 ∧ feedBytes now (bs.take k) s = .next (t, outs) ∧
      t.pstate = .waitSync := by
  have hbound := hs.length_wireSoFar_le
  induction bs generalizing s with
  | nil => simp only [List.length_nil] at hlen; omega
  | cons b bs ih =>
    obtain ⟨u, hbyte, hu⟩ := execByte_answersInv hs b now
    rcases execByte_takes hs hbyte with hwait | ⟨hcfg, -, hwire⟩
    · exact ⟨1, u, _, le_rfl, by omega, (feedBytes_cons_eq_next_iff now b [] s _).2 ⟨u, u, [], hbyte, rfl, rfl⟩, hwait⟩
    · have hlength : u.wireSoFar.length = s.wireSoFar.length + 1 := by simp [hwire]
      rw [List.length_cons] at hlen
      obtain ⟨k, t, outs, -, hk, hfeed, ht⟩ := ih hu (by rw [hcfg]; omega) hu.length_wireSoFar_le
      rw [hcfg] at hk
      exact ⟨k + 1, t, _, by omega, by omega,
        (feedBytes_cons_eq_next_iff now b (bs.take k) s _).2 ⟨u, t, outs, hbyte, hfeed, rfl⟩, ht⟩

end

/-- Settles O32: the bound on a frame in progress bounds the bytes until it ends. -/
theorem parserReturnsWithinBound : Obligations.ParserReturnsWithinBound := by
  unfold Obligations.ParserReturnsWithinBound
  intro now bs s hs hlen
  obtain ⟨k, t, outs, hk, hle, hfeed, ht⟩ := exists_take_waitSync now bs hs (by omega)
  exact ⟨k, t, outs, hk, by omega, hfeed, ht⟩

end Sys2Proof.Machine

namespace Sys2Proof.Machine

/-! ## Bytes taken one after the other into the frame in progress (R90, R102) -/

/-- Bytes fed after others. -/
theorem feedBytes_append {now : Time} {as bs : List Byte} {s t u : State} {os ps : List Output}
    (has : feedBytes now as s = .next (t, os)) (hbs : feedBytes now bs t = .next (u, ps)) :
    feedBytes now (as ++ bs) s = .next (u, os ++ ps) := by
  induction as generalizing s os with
  | nil => cases has; exact hbs
  | cons a as ih =>
    obtain ⟨v, w, os', hbyte, hfeed, heq⟩ := (feedBytes_cons_eq_next_iff now a as s _).1 has
    cases heq
    exact (feedBytes_cons_eq_next_iff now a (as ++ bs) s _).2 ⟨v, u, _, hbyte, ih hfeed, rfl⟩

/-- One byte fed. -/
theorem feedBytes_singleton {now : Time} {b : Byte} {s t : State} (h : execByte b now s = .next t) :
    feedBytes now [b] s = .next (t, [t.out]) :=
  (feedBytes_cons_eq_next_iff now b [] s _).2 ⟨t, t, [], h, rfl, rfl⟩

/-- The bytes take the parser from `s` to `t`, each step frame-in-progress and nothing else. -/
def Accepts (now : Time) (bs : List Byte) (s t : State) : Prop :=
  feedBytes now bs s = .next (t, List.replicate bs.length { status := some .frameInProgress })

/-- What every byte of a list does that is accepted before the Crc byte: `State.accept` of each. -/
def State.acceptAll (s : State) (bs : List Byte) : State :=
  { s with
    crc := crcFold s.cfg.crc s.crc bs
    out := { status := some .frameInProgress }
    res := .nothing }

section
variable {now : Time} {s t u : State}

/-- One byte accepted. -/
theorem Accepts.single {b : Byte} (h : execByte b now s = .next t)
    (hout : t.out = { status := some .frameInProgress }) : Accepts now [b] s t := by
  have hfeed := feedBytes_singleton h
  rwa [hout] at hfeed

/-- Bytes accepted after others. -/
theorem Accepts.append {as bs : List Byte} (has : Accepts now as s t) (hbs : Accepts now bs t u) :
    Accepts now (as ++ bs) s u := by
  have hfeed := feedBytes_append has hbs
  rwa [List.replicate_append_replicate, ← List.length_append] at hfeed

/-- Bytes accepted after one byte. -/
theorem Accepts.cons {b : Byte} {bs : List Byte} (h : execByte b now s = .next t)
    (hout : t.out = { status := some .frameInProgress }) (hbs : Accepts now bs t u) : Accepts now (b :: bs) s u :=
  (Accepts.single h hout).append hbs

/-! ## The header, field by field (R121 to R131) -/

/-- The marker and a legal MsgType. -/
theorem accepts_type (hp : s.pstate = .waitSync) (hcrc : s.crc = s.cfg.crc.init) {m : Byte}
    (hm : legalMsgType s.cfg m = true) :
    Accepts now [s.cfg.syncVal, m] s
      { s.acceptAll [s.cfg.syncVal, m] with pstate := .gotMsgType, cnt := 0, fType := some m } := by
  have h1 := execByte_syncVal_of_waitSync hp now
  rw [← hcrc] at h1
  exact .cons h1 rfl (.single (Eq.trans (execByte_of_gotSync m now rfl) (execPGotSync_of_legal m now rfl hm)) rfl)

/-- The two Length bytes of a legal Length. -/
theorem accepts_length {v : Half} {b0 b1 : Byte} (hp : s.pstate = .gotMsgType) (h0 : s.cnt = 0)
    (hv : BitVec.ofNat 16 (asm s.cfg.byteOrder [b0, b1]) = v) (hlegal : legalLength s.cfg v = true) :
    Accepts now [b0, b1] s { s.acceptAll [b0, b1] with pstate := .gotLength, cnt := 0, fLen := some v } := by
  have h1 := (execByte_of_gotMsgType b0 now hp).trans (execPGotMsgType_first b0 now hp h0)
  rw [← lengthOf_eq_ofNat_asm] at hv
  subst hv
  exact .cons h1 rfl (.single (Eq.trans (execByte_of_gotMsgType b1 now hp)
    (Eq.trans (execPGotMsgType_second b1 now hp rfl rfl) (if_pos hlegal))) rfl)

/-- One of the first three ObjID bytes, `k` having been taken before (R128). -/
theorem execByte_objId_of_lt {k : Nat} {v : Word} (b : Byte) (hp : s.pstate = .gotLength) (hk : k < 3)
    (hcnt : s.cnt = BitVec.ofNat 8 k) (h0 : k = 0 → v = 0) (hv : k ≠ 0 → s.fObjid = some v) :
    execByte b now s = .next
      { s.accept b with fObjid := some (asmStep s.cfg.byteOrder k v b), cnt := BitVec.ofNat 8 (k + 1) } := by
  have hnat : s.cnt.toNat = k := by rw [hcnt, BitVec.toNat_ofNat]; omega
  have hasm : asmReg s.cfg.byteOrder s.cnt.toNat s.fObjid b = some (asmStep s.cfg.byteOrder k v b) := by
    rw [hnat, asmReg_eq_some_asmStep b _ h0 hv]
  rw [execByte_of_gotLength b now hp, execPGotLength_of_lt b now hp (hnat ▸ hk) hasm, hcnt, BitVec.ofNat_add]
  rfl

/-- The first three ObjID bytes. -/
theorem accepts_objId_init (hp : s.pstate = .gotLength) (h0 : s.cnt = 0) (b0 b1 b2 : Byte) :
    Accepts now [b0, b1, b2] s
      { s.acceptAll [b0, b1, b2] with cnt := 3, fObjid := some (asmSteps s.cfg.byteOrder 0 0 [b0, b1, b2]) } :=
  .cons (execByte_objId_of_lt b0 hp (k := 0) (by decide) h0 (fun _ => rfl) (absurd rfl)) rfl
    (.cons (execByte_objId_of_lt b1 hp (k := 1) (by decide) rfl nofun fun _ => rfl) rfl
      (.single (execByte_objId_of_lt b2 hp (k := 2) (by decide) rfl nofun fun _ => rfl) rfl))

/-- The four ObjID bytes where H = 10. -/
theorem accepts_objId_of_ten {v : Word} {b0 b1 b2 b3 : Byte} (hp : s.pstate = .gotLength) (h0 : s.cnt = 0)
    (h10 : s.cfg.h = 10) (hv : BitVec.ofNat 32 (asm s.cfg.byteOrder [b0, b1, b2, b3]) = v) :
    Accepts now [b0, b1, b2, b3] s
      { s.acceptAll [b0, b1, b2, b3] with pstate := .gotObjID, cnt := 0, fObjid := some v } := by
  rw [← asmSteps_eq_ofNat_asm _ _ (by simp)] at hv
  subst hv
  exact (accepts_objId_init hp h0 b0 b1 b2).append
    (.single (Eq.trans (execByte_of_gotLength b3 now hp) (execPGotLength_last_of_ten b3 now hp rfl h10 rfl)) rfl)

/-- The four ObjID bytes where H is not 10: the header ends. -/
theorem accepts_objId_of_ne_ten {v : Word} {len : Half} {b0 b1 b2 b3 : Byte} (hp : s.pstate = .gotLength)
    (h0 : s.cnt = 0) (h10 : s.cfg.h ≠ 10) (hlen : s.fLen = some len)
    (hv : BitVec.ofNat 32 (asm s.cfg.byteOrder [b0, b1, b2, b3]) = v) :
    Accepts now [b0, b1, b2, b3] s
      (({ s.acceptAll [b0, b1, b2, b3] with fObjid := some v, fInstid := some 0 } : State).endHeader len) := by
  rw [← asmSteps_eq_ofNat_asm _ _ (by simp)] at hv
  subst hv
  exact (accepts_objId_init hp h0 b0 b1 b2).append (.single (Eq.trans (execByte_of_gotLength b3 now hp)
    (execPGotLength_last_of_ne_ten b3 now hp rfl h10 rfl hlen)) rfl)

/-- The two InstID bytes, and the end of the header. -/
theorem accepts_instId {v len : Half} {b0 b1 : Byte} (hp : s.pstate = .gotObjID) (h0 : s.cnt = 0)
    (hlen : s.fLen = some len) (hv : BitVec.ofNat 16 (asm s.cfg.byteOrder [b0, b1]) = v) :
    Accepts now [b0, b1] s (({ s.acceptAll [b0, b1] with fInstid := some v } : State).endHeader len) := by
  rw [← asmSteps_eq_ofNat_asm _ _ (by simp)] at hv
  subst hv
  have h1 := (execByte_of_gotObjID b0 now hp).trans (execPGotObjID_first b0 now hp h0)
  exact .cons h1 rfl (.single (Eq.trans (execByte_of_gotObjID b1 now hp)
    (execPGotObjID_second b1 now hp rfl rfl hlen)) rfl)

end

/-- Settles O24: the ObjID bytes and the InstID bytes, each field read off the state they are accepted into. -/
theorem headerFieldsAreAssembled : Obligations.HeaderFieldsAreAssembled := by
  unfold Obligations.HeaderFieldsAreAssembled
  intro now s hs h0
  obtain ⟨⟨hcfg, -⟩, hparser⟩ := (inv_iff s).1 hs
  refine ⟨fun b0 b1 b2 b3 hp => ?_, fun b0 b1 hp => ?_⟩
  · rcases header_of_wellFormed hcfg with h8 | h10
    · simp only [State.ParserInv, hp] at hparser
      obtain ⟨-, -, ⟨hsome, -⟩, -⟩ := hparser
      obtain ⟨len, hlen⟩ := Option.isSome_iff_exists.1 hsome
      refine ⟨_, _, accepts_objId_of_ne_ten hp h0 (by simp [h8]) hlen rfl, rfl, rfl, rfl, rfl, rfl,
        fun h10 => absurd (h8.symm.trans h10) (by decide), fun _ => ?_, fun _ => List.eq_of_mem_replicate⟩
      simpa using State.endHeader_pstate_mem _ len
    · exact ⟨_, _, accepts_objId_of_ten hp h0 h10 rfl, rfl, rfl, rfl, rfl, rfl, fun _ => rfl,
        fun h8 => absurd (h8.symm.trans h10) (by decide), fun _ => List.eq_of_mem_replicate⟩
  · simp only [State.ParserInv, hp] at hparser
    obtain ⟨-, -, -, ⟨hsome, -⟩, -⟩ := hparser
    obtain ⟨len, hlen⟩ := Option.isSome_iff_exists.1 hsome
    refine ⟨_, _, accepts_instId hp h0 hlen rfl, rfl, rfl, rfl, rfl, rfl, rfl, ?_, fun _ => List.eq_of_mem_replicate⟩
    simpa using State.endHeader_pstate_mem _ len

end Sys2Proof.Machine

namespace Sys2Proof.Machine

/-! ## The Data bytes (R132, R133) -/

/-- Cells that hold the bytes of a list, one after the other, are read as the list. -/
theorem Memory.readBytes_eq_some {m : Memory Byte} {a : Nat} {bs : List Byte}
    (h : ∀ k < bs.length, Memory.read m (a + k) = bs[k]?) : Memory.readBytes m a bs.length = some bs := by
  induction bs generalizing a with
  | nil => rfl
  | cons b bs ih =>
    have hfirst : Memory.read m a = some b := h 0 (Nat.succ_pos _)
    have hrest : Memory.readBytes m (a + 1) bs.length = some bs := ih fun k hk => by
      rw [Nat.add_assoc, Nat.add_comm 1 k]
      exact h (k + 1) (Nat.succ_lt_succ hk)
    simp only [List.length_cons, Memory.readBytes, hfirst, hrest]

/-- A write behind the cells read adds one byte to the read. -/
theorem Memory.readBytes_write_succ {m : Memory Byte} {n : Nat} {bs : List Byte} (b : Byte)
    (h : Memory.readBytes m 0 n = some bs) : Memory.readBytes (Memory.write m n b) 0 (n + 1) = some (bs ++ [b]) := by
  obtain rfl : bs.length = n := Memory.readBytes_length m 0 n bs h
  have hlen : (bs ++ [b]).length = bs.length + 1 := by simp
  rw [← hlen]
  refine Memory.readBytes_eq_some fun k hk => ?_
  rw [Nat.zero_add]
  rcases Nat.lt_succ_iff_lt_or_eq.1 (hlen ▸ hk) with hk | rfl
  · have hold := Memory.readBytes_getElem m 0 bs.length bs h k hk
    rw [Nat.zero_add] at hold
    rw [Memory.read_write_other m b hk.ne, hold, List.getElem?_append_left hk]
  · rw [Memory.read_write_same, List.getElem?_concat_length]

/-- The Data bytes to come are accepted, and the Data buffer then holds them behind those it held. -/
theorem accepts_data {now : Time} {len : Half} (bs : List Byte) {s : State} {pre : List Byte}
    (hp : s.pstate = .gotInstID) (hlen : s.fLen = some len) (hle : dlenOf s.cfg len ≤ 255) (hne : bs ≠ [])
    (hcnt : s.cnt.toNat + bs.length = dlenOf s.cfg len) (hpre : Memory.readBytes s.dbuf 0 s.cnt.toNat = some pre) :
    ∃ dbuf, Accepts now bs s { s.acceptAll bs with dbuf := dbuf, cnt := 0, pstate := .gotData } ∧
      Memory.readBytes dbuf 0 (dlenOf s.cfg len) = some (pre ++ bs) := by
  induction bs generalizing s pre with
  | nil => exact absurd rfl hne
  | cons b bs ih =>
    rw [List.length_cons] at hcnt
    have hwrite := Memory.readBytes_write_succ b hpre
    have hstep := (execByte_of_gotInstID b now hp).trans
      (execPGotInstID_of_lt b now hp hlen (by omega) (by omega))
    cases bs with
    | nil =>
      have hlast : s.cnt.toNat + 1 = dlenOf s.cfg len := by simpa using hcnt
      rw [if_neg (by omega), if_neg (by omega)] at hstep
      exact ⟨_, .single hstep rfl, hlast ▸ hwrite⟩
    | cons c cs =>
      rw [List.length_cons] at hcnt
      have hsucc : (s.cnt + 1).toNat = s.cnt.toNat + 1 := by bv_omega
      rw [if_pos (by omega), if_pos (by omega)] at hstep
      have hcntRest : (s.cnt + 1).toNat + (c :: cs).length = dlenOf s.cfg len := by
        rw [hsucc, List.length_cons]
        omega
      obtain ⟨dbuf, hrest, hread⟩ := ih
        (s := { s.accept b with
          dbuf := Memory.write s.dbuf s.cnt.toNat b, cnt := s.cnt + 1, pstate := .gotInstID })
        rfl hlen hle (List.cons_ne_nil c cs) hcntRest (by rw [hsucc]; exact hwrite)
      exact ⟨dbuf, .cons hstep rfl hrest, by simpa using hread⟩

/-! ## A whole frame (R92, R134, R135) -/

/-- The Length of a frame of `n` Data bytes is legal, and leaves `n` Data bytes (R25, R73). -/
theorem legalLength_and_dlenOf_ofNat {cfg : Config} (hc : configProblem cfg = none) {n : Nat} (hn : n ≤ 255) :
    legalLength cfg (BitVec.ofNat 16 (cfg.h + n)) = true ∧ dlenOf cfg (BitVec.ofNat 16 (cfg.h + n)) = n := by
  have hh := header_of_wellFormed hc
  have hlen : (BitVec.ofNat 16 (cfg.h + n)).toNat = cfg.h + n := by rw [BitVec.toNat_ofNat]; omega
  refine ⟨by simp [legalLength, hlen, hn], ?_⟩
  rw [dlenOf, BitVec.ofNat_add, BitVec.add_comm, BitVec.add_sub_cancel, BitVec.toNat_ofNat]
  omega

/-- The frame that FRAME encodes, as it is emitted (R92, R136). -/
def encodedFrame (cfg : Config) (type : Byte) (objid : Word) (instid : Half) (data : List Byte) : Frame where
  type := cfg.verTag ||| type
  length := BitVec.ofNat 16 (cfg.h + data.length)
  objid := objid
  instid := if cfg.h = 10 then instid else 0
  data := data
  crc := frameCrc cfg (frameBody cfg type objid instid data)

/-- The two bytes of a 16-bit field form its value. -/
theorem exists_bytesOf_two (o : ByteOrder) {v : Nat} (hv : v < 2 ^ 16) :
    ∃ b0 b1, bytesOf o 2 v = [b0, b1] ∧ BitVec.ofNat 16 (asm o [b0, b1]) = BitVec.ofNat 16 v := by
  obtain ⟨b0, b1, h⟩ := List.length_eq_two.1 (length_bytesOf o 2 v)
  exact ⟨b0, b1, h, congrArg _ (h ▸ asm_bytesOf o hv)⟩

/-- The four bytes of a 32-bit field form its value. -/
theorem exists_bytesOf_four (o : ByteOrder) {v : Nat} (hv : v < 2 ^ 32) :
    ∃ b0 b1 b2 b3, bytesOf o 4 v = [b0, b1, b2, b3] ∧
      BitVec.ofNat 32 (asm o [b0, b1, b2, b3]) = BitVec.ofNat 32 v := by
  have hlen := length_bytesOf o 4 v
  match h : bytesOf o 4 v, hlen with
  | [b0, b1, b2, b3], _ => exact ⟨b0, b1, b2, b3, rfl, congrArg _ (h ▸ asm_bytesOf o hv)⟩

/-- The state at the end of the header of a frame of `n` Data bytes: every header byte accepted, and every register
holds its field (R131). -/
def State.afterHeader (s : State) (type : Byte) (objid : Word) (instid : Half) (n : Nat) : State :=
  ({ s.acceptAll (headerBytes s.cfg type objid instid (s.cfg.h + n)) with
      fType := some (s.cfg.verTag ||| type)
      fLen := some (BitVec.ofNat 16 (s.cfg.h + n))
      fObjid := some objid
      fInstid := some (if s.cfg.h = 10 then instid else 0) } : State).endHeader (BitVec.ofNat 16 (s.cfg.h + n))

section
variable {now : Time} {s : State} {type : Byte} {objid : Word} {instid : Half}

/-- The header of a frame is accepted from WaitSync, field by field, and every register then holds its field. -/
theorem accepts_header {n : Nat} (hc : configProblem s.cfg = none) (hp : s.pstate = .waitSync)
    (hcrc : s.crc = s.cfg.crc.init) (htype : legalMsgType s.cfg (s.cfg.verTag ||| type) = true) (hn : n ≤ 255) :
    Accepts now (headerBytes s.cfg type objid instid (s.cfg.h + n)) s (s.afterHeader type objid instid n) := by
  have hh := header_of_wellFormed hc
  obtain ⟨hlegal, -⟩ := legalLength_and_dlenOf_ofNat hc hn
  obtain ⟨l0, l1, hl, hlen⟩ := exists_bytesOf_two s.cfg.byteOrder (v := s.cfg.h + n) (by omega)
  obtain ⟨o0, o1, o2, o3, ho, hobjid⟩ := exists_bytesOf_four s.cfg.byteOrder objid.isLt
  obtain ⟨i0, i1, hi, hinstid⟩ := exists_bytesOf_two s.cfg.byteOrder instid.isLt
  rw [BitVec.ofNat_toNat, BitVec.setWidth_eq] at hobjid hinstid
  have hstart := (accepts_type (now := now) hp hcrc htype).append (accepts_length rfl rfl hlen hlegal)
  simp only [State.afterHeader, headerBytes, hl, ho, hi]
  split_ifs with h10
  · exact (hstart.append (accepts_objId_of_ten rfl rfl h10 hobjid)).append (accepts_instId rfl rfl rfl hinstid)
  · exact hstart.append (accepts_objId_of_ne_ten rfl rfl h10 rfl hobjid)

/-- The bytes of a frame before its Crc byte are accepted from WaitSync, and the frame is then held (R70, R134). -/
theorem accepts_frameBody {data : List Byte} (hs : s.Inv) (hp : s.pstate = .waitSync)
    (htype : legalMsgType s.cfg (s.cfg.verTag ||| type) = true) (hn : data.length ≤ 255) :
    ∃ t, Accepts now (frameBody s.cfg type objid instid data) s t ∧ t.pstate = .gotData ∧ t.cfg = s.cfg ∧
      t.crcByte = frameCrc s.cfg (frameBody s.cfg type objid instid data) ∧
      FrameHeld t (encodedFrame s.cfg type objid instid data) := by
  obtain ⟨⟨hc, -⟩, hparser⟩ := (inv_iff s).1 hs
  simp only [State.ParserInv, hp] at hparser
  obtain ⟨hcrc, -⟩ := hparser
  obtain ⟨-, hdlen⟩ := legalLength_and_dlenOf_ofNat hc hn
  have hheader := accepts_header (now := now) (objid := objid) (instid := instid) hc hp hcrc htype hn
  rw [frameBody, frameCrc, crcFold_append, ← hcrc]
  by_cases hdata : data = []
  · subst hdata
    rw [List.append_nil]
    refine ⟨_, hheader, if_pos hdlen, rfl, rfl, rfl, rfl, rfl, rfl, ?_⟩
    exact (congrArg (Memory.readBytes _ 0) hdlen).trans rfl
  · have hsome : dlenOf s.cfg (BitVec.ofNat 16 (s.cfg.h + data.length)) ≠ 0 := by simpa [hdlen] using hdata
    obtain ⟨dbuf, hrest, hread⟩ := accepts_data (now := now) data (pre := [])
      (s := s.afterHeader type objid instid data.length) (if_neg hsome) rfl
      (hdlen.trans_le hn) hdata ((Nat.zero_add _).trans hdlen.symm) rfl
    exact ⟨_, hheader.append hrest, rfl, rfl, rfl, rfl, rfl, rfl, rfl, hread⟩

/-- The bytes of a frame are accepted from WaitSync but the last, which dispatches the frame (R134, R136). -/
theorem feedBytes_frameBytes {data : List Byte} (hs : s.Inv) (hp : s.pstate = .waitSync)
    (htype : legalMsgType s.cfg (s.cfg.verTag ||| type) = true) (hn : data.length ≤ 255) :
    ∃ u t, Dispatches (State.matched u) (encodedFrame s.cfg type objid instid data) now t ∧
      feedBytes now (frameBytes s.cfg type objid instid data) s = .next
        (t, List.replicate (frameBody s.cfg type objid instid data).length { status := some .frameInProgress } ++
          [t.out]) := by
  obtain ⟨u, hbody, hu, hcfg, hcrc, hheld⟩ :=
    accepts_frameBody (now := now) (objid := objid) (instid := instid) hs hp htype hn
  obtain ⟨hc, -⟩ := hs
  obtain ⟨t, ht, hdisp⟩ := execPGotCrc_of_frameHeld (s := u.matched) (hcfg ▸ hc) hheld rfl rfl now
  have hlast := ((execByte_of_gotData _ now hu).trans (execPGotData_of_eq _ now hu hcrc.symm)).trans ht
  exact ⟨u, t, hdisp, feedBytes_append hbody (feedBytes_singleton hlast)⟩

end

/-- A dispatch step ends in WaitSync. -/
theorem Dispatches.pstate {s t : State} {f : Frame} {now : Time} (h : Dispatches s f now t) : t.pstate = .waitSync := by
  obtain ⟨u, rfl⟩ := h.forgotten
  rfl

/-- Settles O34: the header, the Data bytes and the Crc byte of the frame, accepted one after the other. -/
theorem wellFormedFrameIsEmitted : Obligations.WellFormedFrameIsEmitted := by
  unfold Obligations.WellFormedFrameIsEmitted
  intro now s type objid instid data hs hp htype hn
  obtain ⟨u, t, hdisp, hfeed⟩ := feedBytes_frameBytes (now := now) (objid := objid) (instid := instid) hs hp htype hn
  exact ⟨t, _, t.out, hfeed, fun _ => List.eq_of_mem_replicate, hdisp.status, hdisp.activity, rfl, hdisp.pstate,
    hdisp.frame⟩

/-- TICK emits no frame (R180). -/
theorem execTick_frame {now : Time} {s t : State} (h : execTick now s = .next t) : t.out.frame = none := by
  have ht : (s.beginStep.checkTimeout now).checkPeriod now = t := Host.Outcome.next.inj h
  have htimeout : (s.beginStep.checkTimeout now).out.frame = none := by
    rcases s.beginStep.checkTimeout_cases now with h | ⟨-, h⟩ <;> rw [h] <;> rfl
  rw [← ht]
  rcases (s.beginStep.checkTimeout now).checkPeriod_cases now with h | ⟨-, h⟩ <;> rw [h] <;> exact htimeout

/-- Settles O35: the first frame is accepted up to its Crc byte and discarded, the second is dispatched from WaitSync,
and the closing TICK emits nothing. -/
theorem recoversAfterBadCrc : Obligations.RecoversAfterBadCrc := by
  unfold Obligations.RecoversAfterBadCrc
  intro now s type type' objid objid' instid instid' data data' wrong hwrong hs hp htype htype' hn hn'
  obtain ⟨u, hbody, hu, hcfg, hcrc, -⟩ :=
    accepts_frameBody (now := now) (objid := objid) (instid := instid) hs hp htype hn
  have hdrop := (execByte_of_gotData wrong now hu).trans (execPGotData_of_ne wrong now hu (hcrc ▸ hwrong))
  obtain ⟨⟨hc, hcommon⟩, -⟩ := (inv_iff s).1 hs
  have hdropped : (u.discard .crcMismatch).Inv := by
    obtain ⟨v, outs, hfeed, hv⟩ := feedBytes_answersInv hs now (frameBody s.cfg type objid instid data)
    cases hbody.symm.trans hfeed
    exact ((inv_iff u).1 hv).1.inv_discard _
  obtain ⟨w, t, hdisp, hgood⟩ := feedBytes_frameBytes (now := now) (type := type') (objid := objid')
    (instid := instid') (data := data') hdropped rfl (by simpa [hcfg] using htype') hn'
  rw [State.discard_cfg, hcfg] at hdisp hgood
  have hfeed := feedBytes_append (feedBytes_append hbody (feedBytes_singleton hdrop)) hgood
  refine ⟨_, _, (execRead_eq_next_iff _ now s _).2 ⟨t, _, _, hfeed, rfl, rfl⟩, rfl, ?_, ?_, ?_, ?_⟩
  · simp [readResult, readStatus, countStatus, hdisp.status]
  · simp [readResult, countStatus, hdisp.status, List.countP_replicate]
  · simp [readResult, countStatus, hdisp.status, List.countP_replicate]
  · simp [readResult, hdisp.frame, execTick_frame rfl, List.filterMap_append, encodedFrame]

end Sys2Proof.Machine

namespace Sys2Proof.Machine

/-! ## What BYTE steps determine whatever the times and the connection (R142) -/

/-- The state with other registers of the Connection State Machine. -/
def State.withConn (s : State) (c : CState) (l x : Time) : State := { s with cstate := c, tLast := l, tTx := x }

/-- What a step reports of frames: its status, and the frame emitted with what the dispatcher did with it and
published. -/
def Output.dispatchView (o : Output) : Option Status × Option (Frame × Option DispatchResult × List (Nat × Word)) :=
  (o.status, o.frame.map fun f => (f, o.dres, o.pub))

/-- States with one parser view differ in the registers of the Connection State Machine and the model's own records
only. -/
theorem State.eq_withConn_of_parserView {s u : State} (h : u.parserView = s.parserView) :
    ∃ c l x o r, u = { s.withConn c l x with out := o, res := r } := by
  refine ⟨u.cstate, u.tLast, u.tTx, u.out, u.res, ?_⟩
  obtain ⟨⟩ := s
  obtain ⟨⟩ := u
  simp only [State.parserView, State.mk.injEq] at h
  simp only [State.withConn, State.mk.injEq]
  tauto

/-- The steps agree in the parser view of the state answered and in what they report of frames. -/
abbrev SameView (t t' : State) : Prop :=
  t'.parserView = t.parserView ∧ t'.out.dispatchView = t.out.dispatchView

section
variable {s t : State} {b : Byte} {now : Time} (now' : Time) (c : CState) (l x : Time) (o : Output) (r : OpResult)

/-- P.WAITSYNC takes or ignores its byte alike. -/
theorem execPWaitSync_sameView (h : execPWaitSync b now s = .next t) :
    ∃ t', execPWaitSync b now' { s.withConn c l x with out := o, res := r } = .next t' ∧ SameView t t' := by
  obtain ⟨hp, h⟩ := (selected_eq_next_iff _ _ _ _).1 h
  split_ifs at h with hb
  · cases h; exact ⟨_, execPWaitSync_of_eq b now' hp hb, rfl, rfl⟩
  · cases h; exact ⟨_, execPWaitSync_of_ne b now' hp hb, rfl, rfl⟩

/-- P.GOTSYNC takes its byte or discards alike. -/
theorem execPGotSync_sameView (h : execPGotSync b now s = .next t) :
    ∃ t', execPGotSync b now' { s.withConn c l x with out := o, res := r } = .next t' ∧ SameView t t' := by
  obtain ⟨hp, h⟩ := (selected_eq_next_iff _ _ _ _).1 h
  split_ifs at h with hb
  · cases h; exact ⟨_, execPGotSync_of_legal b now' hp hb, rfl, rfl⟩
  · cases h; exact ⟨_, execPGotSync_of_illegal b now' hp hb, rfl, rfl⟩

/-- P.GOTMSGTYPE takes its byte or discards alike. -/
theorem execPGotMsgType_sameView (h : execPGotMsgType b now s = .next t) :
    ∃ t', execPGotMsgType b now' { s.withConn c l x with out := o, res := r } = .next t' ∧ SameView t t' := by
  obtain ⟨hp, h⟩ := (selected_eq_next_iff _ _ _ _).1 h
  split_ifs at h with h0 h1
  · cases h; exact ⟨_, execPGotMsgType_first b now' hp h0, rfl, rfl⟩
  · obtain ⟨first, hfirst, h⟩ := (need_eq_next_iff _ _ _ _).1 h
    dsimp only at h
    split_ifs at h with hl
    · cases h; exact ⟨_, Eq.trans (execPGotMsgType_second b now' hp h1 hfirst) (if_pos hl), rfl, rfl⟩
    · cases h; exact ⟨_, Eq.trans (execPGotMsgType_second b now' hp h1 hfirst) (if_neg hl), rfl, rfl⟩

/-- P.GOTLENGTH takes its byte alike. -/
theorem execPGotLength_sameView (h : execPGotLength b now s = .next t) :
    ∃ t', execPGotLength b now' { s.withConn c l x with out := o, res := r } = .next t' ∧ SameView t t' := by
  obtain ⟨hp, h⟩ := (selected_eq_next_iff _ _ _ _).1 h
  split_ifs at h with hle hlt h10
  · obtain ⟨objid, hasm, h⟩ := (need_eq_next_iff _ _ _ _).1 h
    cases h; exact ⟨_, execPGotLength_of_lt b now' hp hlt hasm, rfl, rfl⟩
  · obtain ⟨objid, hasm, h⟩ := (need_eq_next_iff _ _ _ _).1 h
    have h3 : s.cnt = 3 := by bv_omega
    cases h; exact ⟨_, execPGotLength_last_of_ten b now' hp h3 h10 hasm, rfl, rfl⟩
  · obtain ⟨objid, hasm, h⟩ := (need_eq_next_iff _ _ _ _).1 h
    obtain ⟨len, hlen, h⟩ := (need_eq_next_iff _ _ _ _).1 h
    have h3 : s.cnt = 3 := by bv_omega
    cases h; exact ⟨_, execPGotLength_last_of_ne_ten b now' hp h3 h10 hasm hlen, rfl, rfl⟩

/-- P.GOTOBJID takes its byte alike. -/
theorem execPGotObjID_sameView (h : execPGotObjID b now s = .next t) :
    ∃ t', execPGotObjID b now' { s.withConn c l x with out := o, res := r } = .next t' ∧ SameView t t' := by
  obtain ⟨hp, h⟩ := (selected_eq_next_iff _ _ _ _).1 h
  split_ifs at h with h0 h1
  · cases h; exact ⟨_, execPGotObjID_first b now' hp h0, rfl, rfl⟩
  · obtain ⟨instid, hasm, h⟩ := (need_eq_next_iff _ _ _ _).1 h
    obtain ⟨len, hlen, h⟩ := (need_eq_next_iff _ _ _ _).1 h
    obtain ⟨first, hfirst, rfl⟩ := Option.map_eq_some_iff.1 hasm
    cases h; exact ⟨_, execPGotObjID_second b now' hp h1 hfirst hlen, rfl, rfl⟩

/-- P.GOTINSTID takes its byte alike. -/
theorem execPGotInstID_sameView (h : execPGotInstID b now s = .next t) :
    ∃ t', execPGotInstID b now' { s.withConn c l x with out := o, res := r } = .next t' ∧ SameView t t' := by
  obtain ⟨hp, hbody⟩ := (selected_eq_next_iff _ _ _ _).1 h
  obtain ⟨len, hlen, hbody⟩ := (need_eq_next_iff _ _ _ _).1 hbody
  obtain ⟨hle, hcell⟩ : s.cnt.toNat + 1 ≤ dlenOf s.cfg len ∧ s.cnt.toNat < 255 := by
    dsimp only at hbody
    split_ifs at hbody with hle hcell
    · exact ⟨hle, hcell⟩
    · exact ⟨hle, hcell⟩
  cases (execPGotInstID_of_lt b now hp hlen hle hcell).symm.trans h
  exact ⟨_, execPGotInstID_of_lt b now' hp hlen hle hcell, rfl, rfl⟩

end

/-- The dispatcher does not read the registers of the Connection State Machine, and leaves them (R150). -/
theorem dispatchObject_withConn {s t : State} (h : dispatchObject s = .next t) (c : CState) (l x : Time) :
    dispatchObject (s.withConn c l x) = .next (t.withConn c l x) := by
  obtain ⟨objid, len, ho, hl, hcases⟩ := dispatchObject_cases s t h
  obtain ⟨hhit, rfl⟩ | ⟨d, hhit, ⟨hfit, rfl⟩ | ⟨hfit, pairs, hpairs, hslots, rfl⟩⟩ := hcases
  · exact dispatchObject_of_unknown (s := s.withConn c l x) ho hl hhit
  · have hnote : s.noteLookup (some d) (dlenOf s.cfg len) = { s with out := { s.out with dres := some .short } } := by
      simp [State.noteLookup, hfit]
    rw [hnote]
    exact dispatchObject_of_short (s := s.withConn c l x) ho hl hhit hfit
  · exact dispatchObject_of_fits (s := s.withConn c l x) ho hl hhit hfit hpairs hslots

section
variable {s t : State} {b : Byte} {now : Time}

/-- C.FRAME, whatever its time and registers, keeps the parser view and what is reported of frames (R173). -/
theorem sameView_takeFrame (s : State) (objid : Word) (data : List Byte) (now now' : Time) (c : CState) (l x : Time) :
    SameView (s.takeFrame objid data now).toWaitSync ((s.withConn c l x).takeFrame objid data now').toWaitSync := by
  obtain ⟨c1, l1, x1, o1, h1⟩ := s.takeFrame_eq objid data now
  obtain ⟨c2, l2, x2, o2, h2⟩ := (s.withConn c l x).takeFrame_eq objid data now'
  obtain ⟨_, _, _, hout1⟩ := s.takeFrame_out_eq objid data now
  obtain ⟨_, _, _, hout2⟩ := (s.withConn c l x).takeFrame_out_eq objid data now'
  constructor
  · rw [h1, h2]; rfl
  · rw [State.toWaitSync_out, State.toWaitSync_out, hout1, hout2]; rfl

/-- The dispatch step agrees in both, whatever its time and the registers of the Connection State Machine. -/
theorem execPGotCrc_withConn (h : execPGotCrc b now s = .next t) (now' : Time) (c : CState) (l x : Time) :
    ∃ t', execPGotCrc b now' (s.withConn c l x) = .next t' ∧ SameView t t' := by
  obtain ⟨hp, s1, s2, s3, hemit, hdispatch, hframe, rfl⟩ := (execPGotCrc_eq_next_iff b now s t).1 h
  obtain ⟨f, hf, hcrc, rfl⟩ := (emitFrame_eq_next_iff b s s1).1 hemit
  obtain ⟨objid, len, data, ho, hl, hd, rfl⟩ := (execCFrame_eq_next_iff now s2 s3).1 hframe
  have hemit' := (emitFrame_eq_next_iff b (s.withConn c l x) _).2 ⟨f, hf, hcrc, rfl⟩
  have hdispatch' := dispatchObject_withConn hdispatch c l x
  have hframe' := (execCFrame_eq_next_iff now' (s2.withConn c l x) _).2 ⟨objid, len, data, ho, hl, hd, rfl⟩
  exact ⟨_, (execPGotCrc_eq_next_iff b now' _ _).2 ⟨hp, _, _, _, hemit', hdispatch', hframe', rfl⟩,
    sameView_takeFrame s2 objid data now now' c l x⟩

/-- P.GOTDATA dispatches or discards alike. -/
theorem execPGotData_sameView (now' : Time) (c : CState) (l x : Time) (o : Output) (r : OpResult)
    (h : execPGotData b now s = .next t) :
    ∃ t', execPGotData b now' { s.withConn c l x with out := o, res := r } = .next t' ∧ SameView t t' := by
  obtain ⟨hp, h⟩ := (selected_eq_next_iff _ _ _ _).1 h
  split_ifs at h with hb
  · obtain ⟨t', ht', hsame⟩ := execPGotCrc_withConn h now' c l x
    exact ⟨t', Eq.trans (execPGotData_of_eq b now' hp hb) ht', hsame⟩
  · cases h; exact ⟨_, execPGotData_of_ne b now' hp hb, rfl, rfl⟩

/-- A BYTE step from states of one parser view, at any two times: the answers agree in both. -/
theorem execByte_sameView {u : State} (hview : u.parserView = s.parserView) (h : execByte b now s = .next t)
    (now' : Time) : ∃ t', execByte b now' u = .next t' ∧ SameView t t' := by
  obtain ⟨c, l, x, o, r, rfl⟩ := State.eq_withConn_of_parserView hview
  simp only [execByte_eq_next_iff] at h ⊢
  rcases h with h | h | h | h | h | h | h
  · obtain ⟨t', ht', hsame⟩ := execPWaitSync_sameView now' c l x o r h
    exact ⟨t', .inl ht', hsame⟩
  · obtain ⟨t', ht', hsame⟩ := execPGotSync_sameView now' c l x o r h
    exact ⟨t', .inr (.inl ht'), hsame⟩
  · obtain ⟨t', ht', hsame⟩ := execPGotMsgType_sameView now' c l x o r h
    exact ⟨t', .inr (.inr (.inl ht')), hsame⟩
  · obtain ⟨t', ht', hsame⟩ := execPGotLength_sameView now' c l x o r h
    exact ⟨t', .inr (.inr (.inr (.inl ht'))), hsame⟩
  · obtain ⟨t', ht', hsame⟩ := execPGotObjID_sameView now' c l x o r h
    exact ⟨t', .inr (.inr (.inr (.inr (.inl ht')))), hsame⟩
  · obtain ⟨t', ht', hsame⟩ := execPGotInstID_sameView now' c l x o r h
    exact ⟨t', .inr (.inr (.inr (.inr (.inr (.inl ht'))))), hsame⟩
  · obtain ⟨t', ht', hsame⟩ := execPGotData_sameView now' c l x o r h
    exact ⟨t', .inr (.inr (.inr (.inr (.inr (.inr ht'))))), hsame⟩

/-- So do any number of BYTE steps. -/
theorem feedBytes_sameView {bs : List Byte} {u : State} {outs : List Output} (hview : u.parserView = s.parserView)
    (h : feedBytes now bs s = .next (t, outs)) (now' : Time) :
    ∃ t' outs', feedBytes now' bs u = .next (t', outs') ∧ t'.parserView = t.parserView ∧
      outs'.map (·.dispatchView) = outs.map (·.dispatchView) := by
  induction bs generalizing s u outs with
  | nil => cases h; exact ⟨u, [], rfl, hview, rfl⟩
  | cons b bs ih =>
    obtain ⟨v, w, outs1, hbyte, hfeed, heq⟩ := (feedBytes_cons_eq_next_iff now b bs s _).1 h
    cases heq
    obtain ⟨v', hbyte', hv, hout⟩ := execByte_sameView hview hbyte now'
    obtain ⟨t', outs', hfeed', ht, houts⟩ := ih hv hfeed
    exact ⟨t', _, (feedBytes_cons_eq_next_iff now' b bs u _).2 ⟨v', t', outs', hbyte', hfeed', rfl⟩, ht,
      by rw [List.map_cons, List.map_cons, hout, houts]⟩

end

/-- TICK keeps the parser view. -/
theorem execTick_parserView {now : Time} {s t : State} (h : execTick now s = .next t) :
    t.parserView = s.parserView := by
  obtain ⟨c, x, out, rfl⟩ := execTick_writes h
  rfl

/-- What a READ dispatched is read off its BYTE steps: its TICK emits no frame. -/
theorem readDispatches_readResult {outs : List Output} {p : PState} {o : Output} (ho : o.frame = none) :
    readDispatches (readResult outs p o) = (outs.map (·.dispatchView)).filterMap (·.2) := by
  simp [readDispatches, readResult, List.filterMap_append, List.filterMap_map, ho, Output.dispatchView]

/-- A count of a READ is read off what its steps report. -/
theorem countStatus_eq_countP_dispatchView (y : Status) (outs : List Output) :
    countStatus y outs = (outs.map (·.dispatchView)).countP fun v => v.1 == some y := by
  simp [countStatus, List.countP_map, Output.dispatchView, Function.comp_def]

/-- Settles O33: the BYTE steps of the two READs agree with those of the one READ, and the TICK between them changes
nothing that they read. -/
theorem chunkingDoesNotMatter : Obligations.ChunkingDoesNotMatter := by
  unfold Obligations.ChunkingDoesNotMatter
  intro as bs t1 t2 t3 s hs
  obtain ⟨u, oa, hfeedA, hu⟩ := feedBytes_answersInv hs t1 as
  obtain ⟨v, ob, hfeedB, -⟩ := feedBytes_answersInv hu t1 bs
  obtain ⟨u', oa', hfeedA', hu', hoa⟩ := feedBytes_sameView (u := s) rfl hfeedA t2
  obtain ⟨w, htick2⟩ : ∃ w, execTick t2 u' = .next w := ⟨_, rfl⟩
  have hfirst := (execRead_eq_next_iff as t2 s _).2 ⟨u', oa', w, hfeedA', htick2, rfl⟩
  have hw : (w.answer (.read (readResult oa' u'.pstate w.out))).parserView = u.parserView :=
    (execTick_parserView htick2).trans hu'
  obtain ⟨v', ob', hfeedB', hv', hob⟩ := feedBytes_sameView hw hfeedB t3
  obtain ⟨y, htick3⟩ : ∃ y, execTick t3 v' = .next y := ⟨_, rfl⟩
  obtain ⟨z, htick1⟩ : ∃ z, execTick t1 v = .next z := ⟨_, rfl⟩
  have htwo := (execRead_eq_next_iff bs t3 _ _).2 ⟨v', ob', y, hfeedB', htick3, rfl⟩
  have hone := (execRead_eq_next_iff (as ++ bs) t1 s _).2 ⟨v, _, z, feedBytes_append hfeedA hfeedB, htick1, rfl⟩
  refine ⟨_, _, _, hone, hfirst, htwo, ?_, _, _, _, rfl, rfl, rfl, ?_, ?_, ?_⟩
  · exact (execTick_parserView htick1).trans (hv'.symm.trans (execTick_parserView htick3).symm)
  · rw [readDispatches_readResult (execTick_frame htick1), readDispatches_readResult (execTick_frame htick2),
      readDispatches_readResult (execTick_frame htick3), hoa, hob, List.map_append, List.filterMap_append]
  · simp only [readResult, countStatus_eq_countP_dispatchView, hoa, hob, List.map_append, List.countP_append]
  · simp only [readResult, countStatus_eq_countP_dispatchView, hoa, hob, List.map_append, List.countP_append]

end Sys2Proof.Machine

namespace Sys2Proof.Machine

/-! ## The descriptor of an ObjID (R12, R151 to R153) -/

/-- No descriptor has the ObjID where none is found. -/
theorem lookup_eq_none_iff (desc : List Descriptor) (objid : Word) :
    lookup desc objid = none ↔ ∀ d ∈ desc, d.objid ≠ objid := by
  simp [lookup]

/-- The first descriptor of the ObjID in table order is found. -/
theorem lookup_of_first {before after : List Descriptor} {d : Descriptor} {objid : Word} (hd : d.objid = objid)
    (hbefore : ∀ e ∈ before, e.objid ≠ objid) : lookup (before ++ d :: after) objid = some d := by
  rw [lookup, List.find?_eq_some_iff_append]
  exact ⟨beq_iff_eq.2 hd, before, after, rfl, by simpa using hbefore⟩

/-- Two descriptors of a well-formed configuration differ in their ObjID. -/
theorem objids_nodup_of_wellFormed {cfg : Config} (h : configProblem cfg = none) : (cfg.desc.map (·.objid)).Nodup :=
  (allDistinct_iff_nodup _).1 <| (configProblem_eq_none_iff cfg).1 h
    (allDistinct (cfg.desc.map (·.objid)), .objidsEqual)
    (by simp only [configConditions, List.mem_cons, true_or, or_true])

/-- Two fields of a descriptor of a well-formed configuration differ in their slot. -/
theorem slots_nodup_of_wellFormed {cfg : Config} (h : configProblem cfg = none) {d : Descriptor} (hd : d ∈ cfg.desc) :
    (d.fields.map (·.slot)).Nodup := by
  have hslots : (cfg.desc.all fun d => allDistinct (d.fields.map (·.slot))) = true :=
    (configProblem_eq_none_iff cfg).1 h (cfg.desc.all fun d => allDistinct (d.fields.map (·.slot)), .slotsEqual)
      (by simp only [configConditions, List.mem_cons, true_or, or_true])
  exact (allDistinct_iff_nodup _).1 (List.all_eq_true.1 hslots d hd)

/-- Under a well-formed configuration every descriptor is the one found for its ObjID. -/
theorem lookup_of_mem {cfg : Config} (h : configProblem cfg = none) {d : Descriptor} (hd : d ∈ cfg.desc) :
    lookup cfg.desc d.objid = some d := by
  have hnodup := objids_nodup_of_wellFormed h
  obtain ⟨before, after, hdesc⟩ := List.append_of_mem hd
  rw [hdesc, List.map_append, List.nodup_append] at hnodup
  obtain ⟨-, -, hne⟩ := hnodup
  rw [hdesc]
  exact lookup_of_first rfl fun e he => hne _ (List.mem_map_of_mem he) _ (by simp)

/-- The fit check says that every field lies inside the Data (R153). -/
theorem fits_iff (d : Descriptor) (n : Nat) : fits d n = true ↔ ∀ f ∈ d.fields, f.off + widthBytes f.width ≤ n := by
  simp [fits]

/-- It fails where some field does not. -/
theorem fits_eq_false_iff (d : Descriptor) (n : Nat) :
    fits d n = false ↔ ∃ f ∈ d.fields, n < f.off + widthBytes f.width := by
  simp [fits]

/-- D.LOOKUP answers what the table gives and notes it (R151 to R153). -/
theorem execDLookup_of_held {s : State} {objid : Word} {len : Half} (ho : s.fObjid = some objid) (hl : s.fLen = some len)
    {hit : Option Descriptor} (hhit : lookup s.cfg.desc objid = hit) :
    execDLookup s = .next ((s.noteLookup hit (dlenOf s.cfg len)).answer (.lookup hit)) := by
  simp only [execDLookup, ho, hl, need_some, hhit]

/-- Settles O39: no descriptor is found, or the first of the ObjID, and then the fit check decides. -/
theorem lookupFindsTheDescriptor : Obligations.LookupFindsTheDescriptor := by
  unfold Obligations.LookupFindsTheDescriptor
  intro s objid len ho hl
  refine ⟨fun hmiss => ?_, fun before after d hdesc hd hbefore => ?_⟩
  · exact execDLookup_of_held ho hl ((lookup_eq_none_iff _ _).2 hmiss)
  · have hlookup := execDLookup_of_held ho hl (hdesc ▸ lookup_of_first hd hbefore)
    refine ⟨fun hfit => hlookup.trans ?_, fun hshort => hlookup.trans ?_⟩
    · rw [State.noteLookup, if_pos ((fits_iff d _).2 hfit)]
      rfl
    · simp only [State.noteLookup, (fits_eq_false_iff d _).2 hshort, Bool.false_eq_true, if_false]
      rfl

/-! ## The value of a field (R154 to R156) -/

/-- A value of at most 32 bits that is not sign-extended keeps its number (R155, R156). -/
theorem toNat_extend_of_ne_sint {ty : FieldType} (hty : ty ≠ .sint) {n raw : Nat} (hraw : raw < 2 ^ (8 * n))
    (hn : n ≤ 4) : (extend ty n raw).toNat = raw := by
  have h32 : raw < 2 ^ 32 := hraw.trans_le (Nat.pow_le_pow_right (by decide) (by omega))
  cases ty with
  | sint => exact absurd rfl hty
  | uint | enum | float => exact (BitVec.toNat_ofNat raw 32).trans (Nat.mod_eq_of_lt h32)

/-- A sign-extended value is the two's-complement number of its `8 * n` bits (R156). -/
theorem toInt_extend_sint {n raw : Nat} (hraw : raw < 2 ^ (8 * n)) (hpos : 0 < n) (hn : n ≤ 4) :
    (extend .sint n raw).toInt = if raw < 2 ^ (8 * n - 1) then (raw : Int) else (raw : Int) - 2 ^ (8 * n) := by
  have hhalf : 2 ^ (8 * n) = 2 * 2 ^ (8 * n - 1) := by rw [← Nat.pow_succ', Nat.succ_eq_add_one]; congr 1; omega
  have hsign : 2 * raw < 2 ^ (8 * n) ↔ raw < 2 ^ (8 * n - 1) := by omega
  rw [extend, BitVec.toInt_signExtend_of_le (by omega), BitVec.toInt_eq_toNat_cond, BitVec.toNat_ofNat,
    Nat.mod_eq_of_lt hraw]
  simp only [hsign, Nat.cast_pow, Nat.cast_ofNat]

/-- A field is one to four bytes wide (R87). -/
theorem widthBytes_bounds (w : Width) : 0 < widthBytes w ∧ widthBytes w ≤ 4 := by
  cases w <;> decide

/-- Settles O40: the value of D.EXTRACT is the extension of `asm` of the bytes, which has no more bits than the field. -/
theorem extractGivesTheTypedValue : Obligations.ExtractGivesTheTypedValue := by
  unfold Obligations.ExtractGivesTheTypedValue
  intro s f bs hread
  obtain ⟨hpos, hle⟩ := widthBytes_bounds f.width
  have hlt : asm s.cfg.byteOrder bs < 2 ^ (8 * widthBytes f.width) :=
    Memory.readBytes_length _ _ _ _ hread ▸ asm_lt s.cfg.byteOrder bs
  refine ⟨extend f.ty (widthBytes f.width) (asm s.cfg.byteOrder bs), ?_, fun hty => ?_, fun hty => ?_⟩
  · simp only [exec, execDExtract, extractField, hread, Option.map_some, need_some]
    rfl
  · rw [hty]
    exact toInt_extend_sint hlt hpos hle
  · exact toNat_extend_of_ne_sint hty hlt hle

/-! ## The publication (R31, R158) -/

/-- D.PUBLISH to slots that exist is `State.publish`. -/
theorem execDPublish_of_slots {s : State} {pairs : List (Nat × Word)} (h : ∀ p ∈ pairs, p.1 < s.cfg.nSlots) :
    execDPublish pairs s = .next (s.publish pairs) := by
  rw [execDPublish, if_pos (by simpa using h)]

/-- D.PUBLISH to a slot that does not exist stops. -/
theorem execDPublish_of_noSuchSlot {s : State} {pairs : List (Nat × Word)} (h : ∃ p ∈ pairs, s.cfg.nSlots ≤ p.1) :
    execDPublish pairs s = .fault .noSuchSlot := by
  rw [execDPublish, if_neg (by simpa using h)]

/-- Settles O42: the snapshot published is `Memory.writeAll` of the pairs. -/
theorem publishWritesExactlyTheNamedSlots : Obligations.PublishWritesExactlyTheNamedSlots := by
  unfold Obligations.PublishWritesExactlyTheNamedSlots
  exact fun s pairs => ⟨fun hslots hnodup => ⟨Memory.writeAll s.snap pairs, execDPublish_of_slots hslots,
    Memory.read_writeAll_mem _ pairs hnodup, Memory.read_writeAll_other _ pairs, Memory.writeAll_wf _ pairs⟩,
    execDPublish_of_noSuchSlot⟩

/-! ## The dispatcher on a known object (R150, R157, R162) -/

/-- The value of a field in the Data of a frame: its bytes, assembled and extended (R154 to R156). -/
def fieldValue (cfg : Config) (data : List Byte) (g : FieldEntry) : Word :=
  extend g.ty (widthBytes g.width) (asm cfg.byteOrder ((data.drop g.off).take (widthBytes g.width)))

/-- The publication list of fields: every slot with its field's value, in order (R157). -/
def publicationOf (cfg : Config) (data : List Byte) (fs : List FieldEntry) : List (Nat × Word) :=
  fs.map fun g => (g.slot, fieldValue cfg data g)

@[simp] theorem slots_publicationOf (cfg : Config) (data : List Byte) (fs : List FieldEntry) :
    (publicationOf cfg data fs).map (·.1) = fs.map (·.slot) := by
  simp [publicationOf]

/-- Fields that lie inside the Data read are extracted to their publication list (R154, R157). -/
theorem extractAll_of_readBytes (cfg : Config) {dbuf : Memory Byte} {n : Nat} {data : List Byte}
    (hd : Memory.readBytes dbuf 0 n = some data) (fs : List FieldEntry)
    (hfit : ∀ f ∈ fs, f.off + widthBytes f.width ≤ n) : extractAll cfg dbuf fs = some (publicationOf cfg data fs) := by
  induction fs with
  | nil => rfl
  | cons f fs ih =>
    rw [List.forall_mem_cons] at hfit
    obtain ⟨hf, hfs⟩ := hfit
    have hread := Memory.readBytes_slice hd hf
    rw [Nat.zero_add] at hread
    have hvalue : extractField cfg dbuf f = some (fieldValue cfg data f) := by
      rw [extractField, hread, Option.map_some, fieldValue]
    simp only [extractAll, hvalue, ih hfs, publicationOf, List.map_cons]

/-- Every slot of a descriptor reads as published (R158). -/
theorem read_publicationOf {cfg : Config} (hc : configProblem cfg = none) {d : Descriptor} (hd : d ∈ cfg.desc)
    (m : Memory Word) (data : List Byte) {p : Nat × Word} (hp : p ∈ publicationOf cfg data d.fields) :
    Memory.read (Memory.writeAll m (publicationOf cfg data d.fields)) p.1 = some p.2 :=
  Memory.read_writeAll_mem m _ (by simpa using slots_nodup_of_wellFormed hc hd) p hp

/-- A known object whose every field lies inside the Data is published (R150, R153, R157). -/
theorem dispatchObject_of_known {s : State} {f : Frame} {d : Descriptor} (hc : configProblem s.cfg = none)
    (hf : FrameHeld s f) (hd : d ∈ s.cfg.desc) (hobjid : d.objid = f.objid)
    (hfit : ∀ g ∈ d.fields, g.off + widthBytes g.width ≤ f.data.length) :
    dispatchObject s = .next (s.publish (publicationOf s.cfg f.data d.fields)) := by
  obtain ⟨-, hl, ho, -, hdata⟩ := hf
  rw [Memory.readBytes_length _ _ _ _ hdata] at hfit
  refine dispatchObject_of_fits ho hl (hobjid ▸ lookup_of_mem hc hd) ((fits_iff d _).2 hfit)
    (extractAll_of_readBytes s.cfg hdata d.fields hfit) fun p hp => ?_
  obtain ⟨g, hg, rfl⟩ := List.mem_map.1 hp
  exact slot_lt_of_wellFormed hc hd hg

/-- The state in which P.GOTCRC hands an emitted frame to the dispatcher (R136). -/
def State.emitted (s : State) (f : Frame) : State := { s with out := { s.out with frame := some f } }

/-- A Crc byte that matches dispatches the frame held, and leaves the snapshot, the result, the error and the publication
as the dispatcher gave them: C.FRAME and the return to WaitSync write none of these (R134, R136, R137). -/
theorem execByte_of_dispatchObject {b : Byte} {s u : State} {f : Frame} (hp : s.pstate = .gotData) (hb : b = s.crcByte)
    (hf : FrameHeld s f) (hcrc : f.crc = b) (h : dispatchObject (s.matched.emitted f) = .next u) (now : Time) :
    ∃ t, execByte b now s = .next t ∧ Dispatches s.matched f now t ∧ t.snap = u.snap ∧ t.out.dres = u.out.dres ∧
      t.out.err = u.out.err ∧ t.out.pub = u.out.pub := by
  have hemit : emitFrame b s.matched = .next (s.matched.emitted f) :=
    (emitFrame_eq_next_iff b _ _).2 ⟨f, hf, hcrc, rfl⟩
  obtain ⟨snap, out, rfl, -⟩ := dispatchObject_writes h
  obtain ⟨-, hl, ho, -, hdata⟩ := id hf
  have hframe := (execCFrame_eq_next_iff now { s.matched.emitted f with snap := snap, out := out } _).2
    ⟨f.objid, f.length, f.data, ho, hl, hdata, rfl⟩
  have hmicro := (execPGotCrc_eq_next_iff b now s.matched _).2 ⟨rfl, _, _, _, hemit, h, hframe, rfl⟩
  have hstep := ((execByte_of_gotData b now hp).trans (execPGotData_of_eq b now hp hb)).trans hmicro
  obtain ⟨_, _, _, _, htake⟩ :=
    State.takeFrame_eq { s.matched.emitted f with snap := snap, out := out } f.objid f.data now
  obtain ⟨_, _, _, hout⟩ :=
    State.takeFrame_out_eq { s.matched.emitted f with snap := snap, out := out } f.objid f.data now
  refine ⟨_, hstep, dispatches_of_execPGotCrc hf hcrc hmicro, ?_, ?_⟩
  · rw [State.toWaitSync_snap, htake]
  · rw [State.toWaitSync_out, hout]
    exact ⟨rfl, rfl, rfl⟩

/-- Settles O43: what the dispatcher does with the frame emitted decides the step's report, case by case. -/
theorem dispatchPublishesAllOrNothing : Obligations.DispatchPublishesAllOrNothing := by
  unfold Obligations.DispatchPublishesAllOrNothing
  intro b now s f ⟨hc, _⟩ hp hb hf hcrc
  have hheld : FrameHeld (s.matched.emitted f) f := hf
  obtain ⟨-, hl, ho, -, hdata⟩ := id hheld
  obtain ⟨u, hu⟩ := exists_dispatchObject_of_frameHeld (s := s.matched.emitted f) hc hheld
  obtain ⟨t, hstep, hdisp, hsnap, hdres, herr, hpub⟩ := execByte_of_dispatchObject hp hb hf hcrc hu now
  refine ⟨t, hstep, hdisp.status, hdisp.frame, hdisp.pstate, fun hmiss => ?_, fun d hd hobjid hshort => ?_,
    fun d hd hobjid hfit => ?_⟩
  · cases hu.symm.trans (dispatchObject_of_unknown (s := s.matched.emitted f) ho hl ((lookup_eq_none_iff _ _).2 hmiss))
    exact ⟨hdres, herr, hpub, hsnap⟩
  · have hhit : lookup s.cfg.desc f.objid = some d := hobjid ▸ lookup_of_mem hc hd
    rw [Memory.readBytes_length _ _ _ _ hdata] at hshort
    have hfit := (fits_eq_false_iff d _).2 hshort
    cases hu.symm.trans (dispatchObject_of_short (s := s.matched.emitted f) ho hl hhit hfit)
    exact ⟨hdres, herr, hpub, hsnap⟩
  · cases hu.symm.trans (dispatchObject_of_known (s := s.matched.emitted f) hc hheld hd hobjid hfit)
    rw [hpub, hsnap]
    exact ⟨hdres, herr, rfl, fun p => read_publicationOf hc hd _ _, fun k hk =>
      Memory.read_writeAll_other _ _ k (by simpa using hk)⟩

/-- A field whose bytes encode a value of its width has that value, extended (R155, R161). -/
theorem fieldValue_of_bytesOf {cfg : Config} {data : List Byte} {g : FieldEntry} {v : Nat}
    (hv : v < 256 ^ widthBytes g.width)
    (h : (data.drop g.off).take (widthBytes g.width) = bytesOf cfg.byteOrder (widthBytes g.width) v) :
    fieldValue cfg data g = extend g.ty (widthBytes g.width) v := by
  rw [fieldValue, h, asm_bytesOf _ hv]

/-- Settles O44: the frame is accepted up to its Crc byte, which publishes the fields of the frame then held, and a field's
published value is the one its bytes encode. -/
theorem fieldValuesRoundTrip : Obligations.FieldValuesRoundTrip := by
  unfold Obligations.FieldValuesRoundTrip
  intro now s d value data hs hp htype hn hd hfields
  obtain ⟨u, hbody, hu, hcfg, hcrc, hheld⟩ :=
    accepts_frameBody (now := now) (objid := d.objid) (instid := 0) hs hp htype hn
  obtain ⟨hc, -⟩ := hs
  rw [← hcfg] at hc hd
  have hpublish := dispatchObject_of_known (s := u.matched.emitted (encodedFrame s.cfg s.cfg.tObj d.objid 0 data))
    hc hheld hd rfl fun g hg => (hfields g hg).1
  obtain ⟨t, hstep, -, hsnap, -⟩ := execByte_of_dispatchObject hu hcrc.symm hheld rfl hpublish now
  refine ⟨t, _, feedBytes_append hbody (feedBytes_singleton hstep), fun g hg => ?_⟩
  obtain ⟨-, hv, hbytes⟩ := hfields g hg
  rw [← hcfg] at hbytes
  rw [hsnap, ← fieldValue_of_bytesOf hv hbytes]
  exact read_publicationOf hc hd u.snap data (List.mem_map_of_mem hg)

end Sys2Proof.Machine

namespace Sys2Proof.Machine

/-! ## The operations of the Connection State Machine, case by case (43_connection.md sections 2 to 5) -/

section
variable {s : State} (now : Time)

/-- R181: the condition of a demotion. -/
theorem State.stale_iff :
    s.stale now = true ↔ s.cstate ≠ .disconnected ∧ s.cfg.tConnect < (elapsed now s.tLast).toNat := by
  simp only [State.stale, Bool.and_eq_true, bne_iff_ne, decide_eq_true_eq]

/-- R183: the condition of a periodic request. -/
theorem State.periodDue_iff :
    s.periodDue now = true ↔
      s.cstate ≠ .disconnected ∧ s.passive = false ∧ s.cfg.tPeriod ≤ (elapsed now s.tTx).toNat := by
  simp only [State.periodDue, Bool.and_eq_true, bne_iff_ne, Bool.not_eq_true', decide_eq_true_eq, and_assoc]

/-- A link that is not stale is left alone (R181). -/
theorem State.checkTimeout_of_not_stale (h : ¬s.stale now = true) : s.checkTimeout now = s := if_neg h

/-- Where no request is due, C.PERIOD does nothing (R183). -/
theorem State.checkPeriod_of_not_due (h : ¬s.periodDue now = true) : s.checkPeriod now = s := if_neg h

end

/-- Settles O47: the two branches of C.TIMEOUT, on the condition `State.stale_iff`. -/
theorem timeoutDemotesStaleLink : Obligations.TimeoutDemotesStaleLink := by
  unfold Obligations.TimeoutDemotesStaleLink
  refine fun now s => ⟨fun hc ht => ?_, fun hfresh => ?_⟩
  · exact congrArg Host.Outcome.next (if_pos ((State.stale_iff now).2 ⟨hc, ht⟩))
  · refine congrArg Host.Outcome.next (State.checkTimeout_of_not_stale now fun hstale => ?_)
    obtain ⟨hc, ht⟩ := (State.stale_iff now).1 hstale
    exact hfresh.elim hc (Nat.not_le_of_lt ht)

/-- Settles O49: the two branches of C.PERIOD, on the condition `State.periodDue_iff`. -/
theorem periodRequestsStats : Obligations.PeriodRequestsStats := by
  unfold Obligations.PeriodRequestsStats
  refine fun now s => ⟨fun hc hp ht => ?_, fun hnot => ?_⟩
  · exact congrArg Host.Outcome.next (if_pos ((State.periodDue_iff now).2 ⟨hc, hp, ht⟩))
  · refine congrArg Host.Outcome.next (State.checkPeriod_of_not_due now fun hdue => ?_)
    obtain ⟨hc, hp, ht⟩ := (State.periodDue_iff now).1 hdue
    rcases hnot with hnot | hnot | hnot
    · exact hc hnot
    · exact Bool.false_ne_true (hp.symm.trans hnot)
    · exact Nat.not_le_of_lt hnot ht

/-- The forward transitions (R176): the link state and the peer status that lead to each. -/
abbrev Forward (cfg : Config) (c : CState) (ps : Byte) (new : CState) : Prop :=
  (c = .disconnected ∧ ps = cfg.psHsReq ∧ new = .handshakeRequested) ∨
  (c = .handshakeRequested ∧ ps = cfg.psHsAck ∧ new = .handshakeAcknowledged) ∨
  (c = .handshakeAcknowledged ∧ ps = cfg.psConn ∧ new = .connected)

/-- A forward transition is what the peer status calls for, and leaves the state. -/
theorem Forward.nextCState {cfg : Config} {c new : CState} {ps : Byte} (h : Forward cfg c ps new) :
    nextCState cfg c ps = new ∧ new ≠ c := by
  rcases h with ⟨rfl, rfl, rfl⟩ | ⟨rfl, rfl, rfl⟩ | ⟨rfl, rfl, rfl⟩
  all_goals exact ⟨if_pos rfl, nofun⟩

/-- Any other pair keeps the state (R176). -/
theorem nextCState_eq_self {cfg : Config} {c : CState} {ps : Byte} (h1 : ¬(c = .disconnected ∧ ps = cfg.psHsReq))
    (h2 : ¬(c = .handshakeRequested ∧ ps = cfg.psHsAck)) (h3 : ¬(c = .handshakeAcknowledged ∧ ps = cfg.psConn)) :
    nextCState cfg c ps = c := by
  cases c with
  | disconnected => exact if_neg fun hps => h1 ⟨rfl, hps⟩
  | handshakeRequested => exact if_neg fun hps => h2 ⟨rfl, hps⟩
  | handshakeAcknowledged => exact if_neg fun hps => h3 ⟨rfl, hps⟩
  | connected => rfl

/-- C.STATS on a forward transition (R176, R177, R179). -/
theorem State.takeStats_of_forward {s : State} {ps : Byte} {new : CState} (h : Forward s.cfg s.cstate ps new)
    (now : Time) :
    s.takeStats ps now =
      { s with
        tLast := now
        cstate := new
        tTx := if s.passive then s.tTx else now
        out :=
          { s.out with
            stats := some ps
            cev := some (s.cstate, new)
            tx := if s.passive then s.out.tx else some .stats } } := by
  obtain ⟨rfl, hne⟩ := h.nextCState
  rcases s.takeStats_cases ps now with ⟨heq, -⟩ | ⟨-, hp, ht⟩ | ⟨-, hp, ht⟩
  · exact absurd heq hne
  · rw [ht, hp]; rfl
  · rw [ht, hp]; rfl

/-- Settles O46: a forward transition, or a peer status that calls for none. -/
theorem statsMakesAtMostOneForwardStep : Obligations.StatsMakesAtMostOneForwardStep := by
  unfold Obligations.StatsMakesAtMostOneForwardStep
  refine fun ps now s => ⟨fun new h => ?_, ?_⟩
  · exact congrArg Host.Outcome.next (State.takeStats_of_forward h now)
  · rintro ⟨h1, h2, h3⟩
    exact congrArg Host.Outcome.next (if_pos (nextCState_eq_self h1 h2 h3))

/-- C.FRAME on a frame held is its effect (R173). -/
theorem execCFrame_of_frameHeld {s : State} {f : Frame} (hf : FrameHeld s f) (now : Time) :
    execCFrame now s = .next (s.takeFrame f.objid f.data now) := by
  obtain ⟨-, hl, ho, -, hdata⟩ := hf
  exact (execCFrame_eq_next_iff now s _).2 ⟨_, _, _, ho, hl, hdata, rfl⟩

/-- A valid stats frame has the ObjID, and its peer status is the byte at the offset (R174). -/
theorem statsOf_eq_some {cfg : Config} {objid : Word} {data : List Byte} {ps : Byte} (ho : objid = cfg.statsObjId)
    (hps : data[cfg.statsStatusOff.val]? = some ps) : statsOf cfg objid data = some ps :=
  (if_pos ho).trans hps

/-- A frame of another ObjID, or too short for the peer status, is none (R174). -/
theorem statsOf_eq_none {cfg : Config} {objid : Word} {data : List Byte}
    (h : objid ≠ cfg.statsObjId ∨ data.length ≤ cfg.statsStatusOff.val) : statsOf cfg objid data = none := by
  rw [statsOf, ite_eq_right_iff, List.getElem?_eq_none_iff]
  exact fun ho => h.resolve_left (absurd ho)

/-- C.FRAME on a valid stats frame (R173). -/
theorem State.takeFrame_of_stats {s : State} {objid : Word} {data : List Byte} {ps : Byte}
    (h : statsOf s.cfg objid data = some ps) (now : Time) :
    s.takeFrame objid data now = State.takeStats { s with out := { s.out with activity := true } } ps now := by
  simp only [State.takeFrame, h]

/-- C.FRAME on any other frame (R173). -/
theorem State.takeFrame_of_not_stats {s : State} {objid : Word} {data : List Byte}
    (h : statsOf s.cfg objid data = none) (now : Time) :
    s.takeFrame objid data now = { s with out := { s.out with activity := true } } := by
  simp only [State.takeFrame, h]

/-- Settles O45: the frame is a valid stats frame, or it is not. -/
theorem frameRunsStatsOnlyOnValidStats : Obligations.FrameRunsStatsOnlyOnValidStats := by
  unfold Obligations.FrameRunsStatsOnlyOnValidStats
  refine fun now s f hf => ⟨fun ps ho hps => ⟨_, execCFrame_of_frameHeld hf now, ?_⟩, fun h => ?_⟩
  · rw [State.takeFrame_of_stats (statsOf_eq_some ho hps)]
    rfl
  · exact (execCFrame_of_frameHeld hf now).trans (by rw [State.takeFrame_of_not_stats (statsOf_eq_none h)])

/-! ## TICK (R180, R182) -/

/-- TICK reports only a connection event with its error, and a request: no status (R180). -/
theorem execTick_out {now : Time} {s t : State} (h : execTick now s = .next t) :
    ∃ err cev tx, t.out = { err := err, cev := cev, tx := tx } := by
  have ht : (s.beginStep.checkTimeout now).checkPeriod now = t := Host.Outcome.next.inj h
  obtain ⟨err, cev, hout⟩ : ∃ err cev, (s.beginStep.checkTimeout now).out = { err := err, cev := cev } := by
    rcases s.beginStep.checkTimeout_cases now with h | ⟨-, h⟩
    · exact ⟨_, _, congrArg State.out h⟩
    · exact ⟨_, _, congrArg State.out h⟩
  rcases (s.beginStep.checkTimeout now).checkPeriod_cases now with h | ⟨-, h⟩
  · exact ⟨err, cev, none, by rw [← ht, h, hout]⟩
  · exact ⟨err, cev, some .stats, by rw [← ht, h, State.requestStats_out, hout]⟩

/-- Settles O14: TICK is by definition the chain, and writes only cstate, t_tx and the model's own records. -/
theorem tickRunsTimeoutThenPeriod : Obligations.TickRunsTimeoutThenPeriod := by
  unfold Obligations.TickRunsTimeoutThenPeriod
  intro now s
  obtain ⟨t, htick⟩ : ∃ t, execTick now s = .next t := ⟨_, rfl⟩
  obtain ⟨err, cev, tx, hout⟩ := execTick_out htick
  refine ⟨_, t, rfl, htick, htick, ?_⟩
  obtain ⟨c, x, out, rfl⟩ := execTick_writes htick
  exact ⟨⟨rfl, rfl, rfl, rfl, rfl, rfl, rfl⟩, rfl, rfl, rfl, ⟨rfl, rfl, rfl⟩, congrArg Output.status hout⟩

/-- TICK on a link that is Disconnected does nothing (R182). -/
theorem execTick_of_disconnected {s : State} (hc : s.cstate = .disconnected) (now : Time) :
    execTick now s = .next s.beginStep := by
  have htimeout : s.beginStep.checkTimeout now = s.beginStep :=
    State.checkTimeout_of_not_stale now fun h => ((State.stale_iff now).1 h).1 hc
  have hperiod : s.beginStep.checkPeriod now = s.beginStep :=
    State.checkPeriod_of_not_due now fun h => ((State.periodDue_iff now).1 h).1 hc
  rw [execTick, execCTimeout, andThen_next, htimeout, execCPeriod, hperiod]

/-- A TICK that reports the timeout leaves the link Disconnected, and no answer to the invoker (R181). -/
theorem execTick_of_timeout {now : Time} {s t : State} (h : execTick now s = .next t)
    (herr : t.out.err = some .handshakeTimeout) : t.cstate = .disconnected ∧ t.res = .nothing := by
  have ht : (s.beginStep.checkTimeout now).checkPeriod now = t := Host.Outcome.next.inj h
  obtain ⟨x, tx, hperiod⟩ : ∃ x tx, t =
      { s.beginStep.checkTimeout now with tTx := x, out := { (s.beginStep.checkTimeout now).out with tx := tx } } := by
    rcases (s.beginStep.checkTimeout now).checkPeriod_cases now with h | ⟨-, h⟩
    · exact ⟨_, _, ht.symm.trans h⟩
    · exact ⟨_, _, ht.symm.trans h⟩
  rcases s.beginStep.checkTimeout_cases now with htimeout | ⟨-, htimeout⟩
  · rw [hperiod, htimeout] at herr
    cases herr
  · rw [hperiod, htimeout]
    exact ⟨rfl, rfl⟩

/-- Any number of TICKs on a link that is Disconnected, from the state that the first one leaves (R182). -/
theorem runEvents_ticks_of_disconnected (nows : List Time) {s : State} (hc : s.cstate = .disconnected) :
    runEvents (nows.map Instr.tick) s.beginStep = .next (s.beginStep, nows.map fun _ => {}) := by
  induction nows with
  | nil => rfl
  | cons now nows ih =>
    have htick : exec (.tick now) s.beginStep = .next s.beginStep := execTick_of_disconnected hc now
    simp only [List.map_cons, runEvents, htick, andThen_next, ih, State.beginStep_out]

/-- Settles O48: the demotion leaves the link Disconnected, where a TICK only begins its step. -/
theorem oneDemotionPerStaleInterval : Obligations.OneDemotionPerStaleInterval := by
  unfold Obligations.OneDemotionPerStaleInterval
  intro nows s t now h herr
  obtain ⟨hc, hr⟩ := execTick_of_timeout h herr
  cases nows with
  | nil => rfl
  | cons now' nows =>
    have htick : exec (.tick now') t = .next t.beginStep := execTick_of_disconnected hc now'
    have hbegin : t.beginStep = { t with out := {} } := by simp only [State.beginStep, hr]
    simp only [List.map_cons, runEvents, htick, andThen_next, runEvents_ticks_of_disconnected nows hc,
      State.beginStep_out]
    rw [if_neg (List.cons_ne_nil now' nows), ← hbegin]

end Sys2Proof.Machine

namespace Sys2Proof.Machine

/-! ## What passive mode does not change (R178)

`State.withoutTx` leaves passive, its parameter, t_tx, the request and the last result out of a state. No operation reads
one of them but to make a request: an operation on a state and on that state without them makes the same choices, so a
proof that it is alike on both follows the branches of its definition. -/

/-- Two answers alike but for what `State.withoutTx` leaves out: both next states that agree in the rest, or one stop. -/
def Alike (r r' : Result) : Prop :=
  (andThen r fun t => .next t.withoutTx) = andThen r' fun t => .next t.withoutTx

/-- An operation alike from a state and from that state without what `State.withoutTx` leaves out. -/
abbrev IgnoresTx (f : State → Result) : Prop := ∀ s, Alike (f s) (f s.withoutTx)

section
variable {r r' : Result} {f g : State → Result}

theorem Alike.next {t t' : State} (h : t.withoutTx = t'.withoutTx) : Alike (.next t) (.next t') :=
  congrArg Host.Outcome.next h

theorem Alike.stops : Alike r r := rfl

theorem Alike.ite {c : Prop} [Decidable c] {a a' : Result} (h : Alike r r') (ha : Alike a a') :
    Alike (if c then r else a) (if c then r' else a') := by
  split
  · exact h
  · exact ha

theorem Alike.need {α : Type} {e : Fault} {v : Option α} {k k' : α → Result} (h : ∀ a, Alike (k a) (k' a)) :
    Alike (need e v k) (need e v k') := by
  cases v with
  | none => exact .stops
  | some a => exact h a

/-- A micro-operation is refused alike: `State.withoutTx` leaves pstate. -/
theorem Alike.selected {p : PState} {s : State} (h : Alike r r') :
    Alike (selected p s r) (selected p s.withoutTx r') := .ite h .stops

/-- An operation alike in this sense is alike from any two states that agree but for what is left out. -/
theorem IgnoresTx.alike (hf : IgnoresTx f) {s u : State} (h : s.withoutTx = u.withoutTx) : Alike (f s) (f u) :=
  (hf s).trans ((congrArg (fun v => andThen (f v) _) h).trans (hf u).symm)

/-- A further operation on alike answers. -/
theorem IgnoresTx.andThen (hf : IgnoresTx f) (hg : IgnoresTx g) : IgnoresTx fun s => andThen (f s) g := by
  have hview (r : Result) : (Machine.andThen (Machine.andThen r g) fun t => .next t.withoutTx) =
      Machine.andThen (Machine.andThen r fun t => .next t.withoutTx)
        fun t => Machine.andThen (g t) fun u => .next u.withoutTx := by
    cases r with
    | next t => exact hg t
    | fault e => rfl
    | refused e => rfl
  intro s
  rw [Alike, hview, hview, hf s]

/-- Where the one state is answered, so is one that agrees with it. -/
theorem Alike.exists_next {t : State} (h : Alike r r') (ht : r = .next t) :
    ∃ t', r' = .next t' ∧ t.withoutTx = t'.withoutTx := by
  rw [Alike, ht, andThen_next] at h
  obtain ⟨t', ht', heq⟩ := (andThen_eq_next_iff _ _ _).1 h.symm
  exact ⟨t', ht', (Host.Outcome.next.inj heq).symm⟩

end

/-- A choice on one condition between states that agree in the rest. -/
theorem State.withoutTx_ite {c : Prop} [Decidable c] {s t s' t' : State} (hs : s.withoutTx = s'.withoutTx)
    (ht : t.withoutTx = t'.withoutTx) : (if c then s else t).withoutTx = (if c then s' else t').withoutTx := by
  split
  · exact hs
  · exact ht

/-! ### The Connection State Machine -/

/-- C.PERIOD writes nothing but the request and its time (R183). -/
theorem State.withoutTx_checkPeriod (s : State) (now : Time) : (s.checkPeriod now).withoutTx = s.withoutTx := by
  rcases s.checkPeriod_cases now with h | ⟨-, h⟩
  · rw [h]
  · rw [h]; rfl

/-- C.TIMEOUT reads none of them (R181). -/
theorem State.withoutTx_checkTimeout (s : State) (now : Time) :
    (s.checkTimeout now).withoutTx = (s.withoutTx.checkTimeout now).withoutTx := State.withoutTx_ite rfl rfl

/-- C.STATS reads passive for the request only (R176, R177). -/
theorem State.withoutTx_takeStats (s : State) (ps : Byte) (now : Time) :
    (s.takeStats ps now).withoutTx = (s.withoutTx.takeStats ps now).withoutTx := by
  refine State.withoutTx_ite rfl ?_
  split
  · rfl
  · rfl

/-- C.FRAME reads none of them but for C.STATS (R173). -/
theorem State.withoutTx_takeFrame (s : State) (objid : Word) (data : List Byte) (now : Time) :
    (s.takeFrame objid data now).withoutTx = (s.withoutTx.takeFrame objid data now).withoutTx := by
  cases hstats : statsOf s.cfg objid data with
  | none =>
    rw [State.takeFrame_of_not_stats hstats, State.takeFrame_of_not_stats (s := s.withoutTx) hstats]
    rfl
  | some ps =>
    rw [State.takeFrame_of_stats hstats, State.takeFrame_of_stats (s := s.withoutTx) hstats,
      State.withoutTx_takeStats, State.withoutTx_takeStats { s.withoutTx with out := _ }]
    rfl

theorem ignoresTx_execCFrame (now : Time) : IgnoresTx (execCFrame now) := fun s =>
  .need fun objid => .need fun _ => .need fun data => .next (s.withoutTx_takeFrame objid data now)

theorem ignoresTx_execCTimeout (now : Time) : IgnoresTx (execCTimeout now) := fun s =>
  .next (s.withoutTx_checkTimeout now)

theorem ignoresTx_execCPeriod (now : Time) : IgnoresTx (execCPeriod now) := fun s =>
  .next ((s.withoutTx_checkPeriod now).trans (s.withoutTx.withoutTx_checkPeriod now).symm)

theorem ignoresTx_execTick (now : Time) : IgnoresTx (execTick now) := fun _ =>
  ((ignoresTx_execCTimeout now).andThen (ignoresTx_execCPeriod now)).alike rfl

/-! ### The Object Dispatcher -/

/-- D.LOOKUP's report reads none of them (R152, R153). -/
theorem State.withoutTx_noteLookup (s : State) (hit : Option Descriptor) (n : Nat) :
    (s.noteLookup hit n).withoutTx = (s.withoutTx.noteLookup hit n).withoutTx := by
  cases hit with
  | none => rfl
  | some d => exact State.withoutTx_ite rfl rfl

theorem ignoresTx_execDLookup : IgnoresTx execDLookup := fun s =>
  .need fun objid => .need fun len =>
    .next (congrArg (State.answer · .nothing) (s.withoutTx_noteLookup (lookup s.cfg.desc objid) (dlenOf s.cfg len)))

/-- Extraction does not read the passive parameter (R154 to R157). -/
theorem extractAll_withoutTx (s : State) (dbuf : Memory Byte) (fs : List FieldEntry) :
    extractAll s.withoutTx.cfg dbuf fs = extractAll s.cfg dbuf fs := by
  induction fs with
  | nil => rfl
  | cons f fs ih =>
    have hfield : extractField s.withoutTx.cfg dbuf f = extractField s.cfg dbuf f := rfl
    rw [extractAll, extractAll, hfield, ih]

theorem ignoresTx_execDPublish (pairs : List (Nat × Word)) : IgnoresTx (execDPublish pairs) := fun _ =>
  .ite (.next rfl) .stops

theorem ignoresTx_dispatchObject : IgnoresTx dispatchObject := fun s =>
  .need fun objid => .need fun len => by
    have hhit : lookup s.withoutTx.cfg.desc objid = lookup s.cfg.desc objid := rfl
    dsimp only
    rw [hhit]
    cases lookup s.cfg.desc objid with
    | none => exact .next (s.withoutTx_noteLookup none _)
    | some d =>
      refine .ite ?_ (.next (s.withoutTx_noteLookup (some d) _))
      rw [extractAll_withoutTx]
      exact .need fun pairs => ignoresTx_execDPublish pairs s

/-! ### The Frame Parser -/

section
variable (b : Byte) (now : Time)

theorem ignoresTx_execPWaitSync : IgnoresTx (execPWaitSync b now) := fun _ =>
  .selected (.ite (.next rfl) (.next rfl))

theorem ignoresTx_execPGotSync : IgnoresTx (execPGotSync b now) := fun _ =>
  .selected (.ite (.next rfl) (.next rfl))

theorem ignoresTx_execPGotMsgType : IgnoresTx (execPGotMsgType b now) := fun _ =>
  .selected (.ite (.next rfl) (.ite (.need fun _ => .ite (.next rfl) (.next rfl)) .stops))

theorem ignoresTx_execPGotLength : IgnoresTx (execPGotLength b now) := fun _ =>
  .selected (.ite (.need fun _ => .ite (.next rfl) (.ite (.next rfl) (.need fun _ => .next rfl))) .stops)

theorem ignoresTx_execPGotObjID : IgnoresTx (execPGotObjID b now) := fun _ =>
  .selected (.ite (.next rfl) (.ite (.need fun _ => .need fun _ => .next rfl) .stops))

theorem ignoresTx_execPGotInstID : IgnoresTx (execPGotInstID b now) := fun _ =>
  .selected (.need fun _ => .ite (.ite (.ite (.next rfl) (.next rfl)) .stops) .stops)

theorem ignoresTx_emitFrame : IgnoresTx (emitFrame b) := fun _ =>
  .need fun _ => .need fun _ => .need fun _ => .need fun _ => .need fun _ => .next rfl

theorem ignoresTx_toWaitSync : IgnoresTx fun s => .next s.toWaitSync := fun _ => .next rfl

theorem ignoresTx_execPGotCrc : IgnoresTx (execPGotCrc b now) := fun s =>
  .selected ((ignoresTx_emitFrame b).andThen
    (ignoresTx_dispatchObject.andThen ((ignoresTx_execCFrame now).andThen ignoresTx_toWaitSync)) s)

theorem ignoresTx_execPGotData : IgnoresTx (execPGotData b now) := fun _ =>
  .selected (.ite ((ignoresTx_execPGotCrc b now).alike rfl) (.next rfl))

theorem ignoresTx_execByte : IgnoresTx (execByte b now) := fun s => by
  have hp : s.withoutTx.pstate = s.pstate := rfl
  unfold execByte
  rw [hp]
  cases s.pstate with
  | waitSync => exact ignoresTx_execPWaitSync b now s
  | gotSync => exact ignoresTx_execPGotSync b now s
  | gotMsgType => exact ignoresTx_execPGotMsgType b now s
  | gotLength => exact ignoresTx_execPGotLength b now s
  | gotObjID => exact ignoresTx_execPGotObjID b now s
  | gotInstID => exact ignoresTx_execPGotInstID b now s
  | gotData => exact ignoresTx_execPGotData b now s
  | gotCrc => exact .stops

end

/-! ### READ -/

/-- The state that the BYTE steps of a READ lead to. -/
def afterBytes (now : Time) (bytes : List Byte) (s : State) : Result :=
  andThen (feedBytes now bytes s) fun r => .next r.1

/-- One BYTE step, and then the others. -/
theorem afterBytes_cons (now : Time) (b : Byte) (bs : List Byte) (s : State) :
    afterBytes now (b :: bs) s = andThen (execByte b now s) (afterBytes now bs) := by
  rw [afterBytes, feedBytes]
  cases execByte b now s with
  | next t =>
    rw [andThen_next, andThen_next, afterBytes]
    cases feedBytes now bs t <;> rfl
  | fault e => rfl
  | refused e => rfl

theorem ignoresTx_afterBytes (now : Time) (bytes : List Byte) : IgnoresTx (afterBytes now bytes) := by
  induction bytes with
  | nil => exact fun _ => .next rfl
  | cons b bs ih =>
    rw [funext (afterBytes_cons now b bs)]
    exact (ignoresTx_execByte b now).andThen ih

/-- A READ leads to the state that its BYTE steps and its TICK lead to, but for its result (R91). -/
theorem alike_execRead (bytes : List Byte) (now : Time) (s : State) :
    Alike (execRead bytes now s) (andThen (afterBytes now bytes s) (execTick now)) := by
  unfold execRead afterBytes
  cases feedBytes now bytes s <;> rfl

theorem ignoresTx_execRead (bytes : List Byte) (now : Time) : IgnoresTx (execRead bytes now) := fun s =>
  (alike_execRead bytes now s).trans
    (((ignoresTx_afterBytes now bytes).andThen (ignoresTx_execTick now) s).trans (alike_execRead bytes now _).symm)

/-! ### Every instruction -/

/-- Every instruction answers alike whatever the passive flag, its parameter, the requests and their time are. -/
theorem ignoresTx_exec (i : Instr) : IgnoresTx (exec i) := fun s => by
  cases i with
  | nop | query | reset | crcInit | crcUpd | crcFin => exact .next rfl
  | illegalOp5 | illegalOp6 | illegalOp7 => exact .stops
  | byte b now | msgIllegal b now => exact ignoresTx_execByte b now s
  | tick now => exact ignoresTx_execTick now s
  | read bytes now => exact ignoresTx_execRead bytes now s
  | msgObj now | msgObjReq now | msgObjAck now | msgAck now | msgNack now | sync now =>
    exact ignoresTx_execByte _ now s
  | pWaitSync b now => exact ignoresTx_execPWaitSync b now s
  | pGotSync b now => exact ignoresTx_execPGotSync b now s
  | pGotMsgType b now => exact ignoresTx_execPGotMsgType b now s
  | pGotLength b now => exact ignoresTx_execPGotLength b now s
  | pGotObjID b now => exact ignoresTx_execPGotObjID b now s
  | pGotInstID b now => exact ignoresTx_execPGotInstID b now s
  | pGotData b now => exact ignoresTx_execPGotData b now s
  | pGotCrc b now => exact ignoresTx_execPGotCrc b now s
  | dLookup => exact ignoresTx_execDLookup s
  | dExtract f => exact .need fun _ => .next rfl
  | dPublish pairs => exact ignoresTx_execDPublish pairs s
  | cFrame now => exact ignoresTx_execCFrame now s
  | cStats ps now => exact .next (s.withoutTx_takeStats ps now)
  | cTimeout now => exact ignoresTx_execCTimeout now s
  | cPeriod now => exact ignoresTx_execCPeriod now s

/-- Settles O51: every operation of which an instruction is made answers alike from states alike. -/
theorem passiveModeChangesOnlyRequests : Obligations.PassiveModeChangesOnlyRequests := by
  unfold Obligations.PassiveModeChangesOnlyRequests
  exact fun i s u s' h hs => ((ignoresTx_exec i).alike h).exists_next hs

end Sys2Proof.Machine

namespace Sys2Proof.Machine

/-! ## In passive mode nothing is requested (R187)

As above, a proof of `Ends` follows the branches of the operation's definition. -/

/-- Whatever state is answered has the property. -/
def Ends (P : State → Prop) (r : Result) : Prop := ∀ t, r = .next t → P t

section
variable {P : State → Prop} {r r' : Result}

theorem Ends.next {t : State} (h : P t) : Ends P (.next t) := fun _ ht => Host.Outcome.next.inj ht ▸ h

theorem Ends.fault {e : Fault} : Ends P (.fault e) := fun _ h => by cases h

theorem Ends.refused {e : Refusal} : Ends P (.refused e) := fun _ h => by cases h

theorem Ends.ite {c : Prop} [Decidable c] (h : Ends P r) (h' : Ends P r') : Ends P (if c then r else r') := by
  split
  · exact h
  · exact h'

theorem Ends.need {α : Type} {e : Fault} {v : Option α} {k : α → Result} (h : ∀ a, Ends P (k a)) :
    Ends P (need e v k) := by
  cases v with
  | none => exact .fault
  | some a => exact h a

theorem Ends.selected {p : PState} {s : State} (h : Ends P r) : Ends P (selected p s r) := .ite h .refused

theorem Ends.andThen {Q : State → Prop} {k : State → Result} (h : Ends P r) (hk : ∀ t, P t → Ends Q (k t)) :
    Ends Q (andThen r k) := by
  intro u hu
  obtain ⟨t, ht, hu⟩ := (andThen_eq_next_iff _ _ _).1 hu
  exact hk t (h t ht) u hu

end

/-- Passive, and the step so far requests nothing and answers no READ. -/
abbrev State.Quiet (s : State) : Prop := s.passive = true ∧ s.out.tx = none ∧ s.res = .nothing

/-- The dispatcher writes the snapshot, and of the output record its own fields and the error (R150). -/
theorem dispatchObject_eq {s t : State} (h : dispatchObject s = .next t) :
    ∃ snap err dres pub, t = { s with snap := snap, out := { s.out with err := err, dres := dres, pub := pub } } := by
  obtain ⟨_, len, _, _, ⟨_, rfl⟩ | ⟨d, _, ⟨hfit, rfl⟩ | ⟨_, _, _, _, rfl⟩⟩⟩ := dispatchObject_cases s t h
  · exact ⟨_, _, _, _, rfl⟩
  · exact ⟨s.snap, s.out.err, some .short, s.out.pub, by simp [State.noteLookup, hfit]⟩
  · exact ⟨_, _, _, _, rfl⟩

section
variable {s : State}

/-- C.STATS requests nothing (R176). -/
theorem State.Quiet.takeStats (hs : s.Quiet) (ps : Byte) (now : Time) : (s.takeStats ps now).Quiet := by
  obtain ⟨hp, htx, hres⟩ := hs
  rcases s.takeStats_cases ps now with ⟨-, h⟩ | ⟨-, -, h⟩ | ⟨-, hnot, -⟩
  · rw [h]; exact ⟨hp, htx, hres⟩
  · rw [h]; exact ⟨hp, htx, hres⟩
  · exact absurd (hp.symm.trans hnot) (by decide)

/-- C.FRAME requests nothing (R173). -/
theorem State.Quiet.takeFrame (hs : s.Quiet) (objid : Word) (data : List Byte) (now : Time) :
    (s.takeFrame objid data now).Quiet := by
  rcases s.takeFrame_cases objid data now with ⟨-, h⟩ | ⟨ps, -, h⟩
  · rw [h]; exact hs
  · rw [h]; exact State.Quiet.takeStats (s := { s with out := { s.out with activity := true } }) hs ps now

/-- The dispatch step requests nothing (R136, R137). -/
theorem State.Quiet.execPGotCrc (hs : s.Quiet) (b : Byte) (now : Time) : Ends State.Quiet (execPGotCrc b now s) := by
  have hemit : Ends State.Quiet (emitFrame b s) :=
    .need fun _ => .need fun _ => .need fun _ => .need fun _ => .need fun _ => .next hs
  have hdispatch (u : State) (hu : u.Quiet) : Ends State.Quiet (dispatchObject u) := fun t ht => by
    obtain ⟨snap, err, dres, pub, rfl⟩ := dispatchObject_eq ht
    exact hu
  have hframe (u : State) (hu : u.Quiet) : Ends State.Quiet (execCFrame now u) :=
    .need fun objid => .need fun _ => .need fun data => .next (hu.takeFrame objid data now)
  exact .selected (hemit.andThen fun _ h1 => (hdispatch _ h1).andThen fun _ h2 => (hframe _ h2).andThen fun _ h3 =>
    .next h3)

variable (hp : s.passive = true)
include hp

/-- A BYTE step requests nothing. -/
theorem ends_quiet_execByte (b : Byte) (now : Time) : Ends State.Quiet (execByte b now s) := by
  unfold execByte
  cases s.pstate with
  | waitSync => exact .selected (.ite (.next ⟨hp, rfl, rfl⟩) (.next ⟨hp, rfl, rfl⟩))
  | gotSync => exact .selected (.ite (.next ⟨hp, rfl, rfl⟩) (.next ⟨hp, rfl, rfl⟩))
  | gotMsgType =>
    exact .selected (.ite (.next ⟨hp, rfl, rfl⟩)
      (.ite (.need fun _ => .ite (.next ⟨hp, rfl, rfl⟩) (.next ⟨hp, rfl, rfl⟩)) .fault))
  | gotLength =>
    exact .selected (.ite (.need fun _ => .ite (.next ⟨hp, rfl, rfl⟩)
      (.ite (.next ⟨hp, rfl, rfl⟩) (.need fun _ => .next ⟨hp, rfl, rfl⟩))) .fault)
  | gotObjID =>
    exact .selected (.ite (.next ⟨hp, rfl, rfl⟩) (.ite (.need fun _ => .need fun _ => .next ⟨hp, rfl, rfl⟩) .fault))
  | gotInstID =>
    exact .selected (.need fun _ => .ite (.ite (.ite (.next ⟨hp, rfl, rfl⟩) (.next ⟨hp, rfl, rfl⟩)) .fault) .fault)
  | gotData =>
    exact .selected (.ite (State.Quiet.execPGotCrc (s := s.matched) ⟨hp, rfl, rfl⟩ b now) (.next ⟨hp, rfl, rfl⟩))
  | gotCrc => exact .fault

/-- TICK requests nothing (R183). -/
theorem ends_quiet_execTick (now : Time) : Ends State.Quiet (execTick now s) := by
  have htimeout : (s.beginStep.checkTimeout now).Quiet := by
    rcases s.beginStep.checkTimeout_cases now with h | ⟨-, h⟩
    · rw [h]; exact ⟨hp, rfl, rfl⟩
    · rw [h]; exact ⟨hp, rfl, rfl⟩
  refine .next ?_
  rcases (s.beginStep.checkTimeout now).checkPeriod_cases now with h | ⟨hdue, -⟩
  · rw [h]; exact htimeout
  · obtain ⟨-, hnot, -⟩ := (State.periodDue_iff now).1 hdue
    exact absurd (htimeout.1.symm.trans hnot) (by decide)

/-- None of the BYTE steps of a READ requests anything. -/
theorem quiet_of_feedBytes {now : Time} {bytes : List Byte} {t : State} {outs : List Output}
    (h : feedBytes now bytes s = .next (t, outs)) : t.passive = true ∧ ∀ o ∈ outs, o.tx = none := by
  induction bytes generalizing s outs with
  | nil => cases h; exact ⟨hp, List.forall_mem_nil _⟩
  | cons b bs ih =>
    obtain ⟨u, v, outs', hbyte, hfeed, heq⟩ := (feedBytes_cons_eq_next_iff now b bs s _).1 h
    cases heq
    obtain ⟨hpu, htx, -⟩ := ends_quiet_execByte hp b now u hbyte
    obtain ⟨hpt, houts⟩ := ih hpu hfeed
    exact ⟨hpt, List.forall_mem_cons.2 ⟨htx, houts⟩⟩

end

/-- Passive, and neither the step nor any step of the READ it was requests a frame. -/
abbrev State.RequestsNothing (t : State) : Prop :=
  t.passive = true ∧ t.out.tx = none ∧ ∀ r, t.res = .read r → ∀ o ∈ r.outs, o.tx = none

theorem State.Quiet.requestsNothing {t : State} (h : t.Quiet) : t.RequestsNothing := by
  obtain ⟨hp, htx, hres⟩ := h
  exact ⟨hp, htx, fun r hr => by rw [hres] at hr; cases hr⟩

/-- A READ requests nothing. -/
theorem requestsNothing_of_execRead {bytes : List Byte} {now : Time} {s t : State} (hp : s.passive = true)
    (h : execRead bytes now s = .next t) : t.RequestsNothing := by
  obtain ⟨u, outs, v, hfeed, htick, rfl⟩ := (execRead_eq_next_iff bytes now s t).1 h
  obtain ⟨hpu, houts⟩ := quiet_of_feedBytes hp hfeed
  obtain ⟨hpv, htx, -⟩ := ends_quiet_execTick hpu now v htick
  refine ⟨hpv, htx, fun r hr => ?_⟩
  cases hr
  exact List.forall_mem_append.2 ⟨houts, List.forall_mem_singleton.2 htx⟩

/-- An instruction that is no sub-operation requests nothing: byte steps and TICK are quiet, a READ is made of them, and
RESET loads `passive` from the parameter that the invariant says it has. -/
theorem requestsNothing_of_exec {i : Instr} {s t : State} (hs : s.Inv) (hp : s.passive = true) (hi : isSubOp i = false)
    (h : exec i s = .next t) : t.RequestsNothing := by
  obtain ⟨⟨-, -, hpassive, -⟩, -⟩ := (inv_iff s).1 hs
  obtain ⟨-, hnot, -⟩ := hs
  cases hbyte : isByteStep i with
  | true =>
    rcases byteStep_cases hbyte h with ⟨b, now, hb⟩ | ⟨b, now, hb⟩
    · exact (ends_quiet_execByte hp b now t hb).requestsNothing
    · obtain ⟨hgot, -⟩ := (execPGotCrc_eq_next_iff b now s t).1 hb
      exact absurd hgot hnot
  | false =>
    rcases exec_eq_next_of_event hbyte hi h with
      ⟨-, rfl⟩ | ⟨now, -, htick⟩ | ⟨-, rfl⟩ | ⟨-, rfl⟩ | ⟨bytes, now, -, hread⟩
    · exact State.Quiet.requestsNothing ⟨hp, rfl, rfl⟩
    · exact (ends_quiet_execTick hp now t htick).requestsNothing
    · exact State.Quiet.requestsNothing ⟨hp, rfl, rfl⟩
    · exact State.Quiet.requestsNothing ⟨hpassive.symm.trans hp, rfl, rfl⟩
    · exact requestsNothing_of_execRead hp hread

/-- Settles O50: an idle step is quiet, and what the decoder gives is no sub-operation. -/
theorem passiveModeNeverRequests : Obligations.PassiveModeNeverRequests := by
  unfold Obligations.PassiveModeNeverRequests
  intro s t hs hp h
  rcases step_eq_next_cases h with rfl | ⟨i, rest, hi, hexec⟩
  · exact State.Quiet.requestsNothing ⟨hp, rfl, rfl⟩
  · have hrest : State.Inv { s with input := rest } := hs
    exact requestsNothing_of_exec hrest hp hi hexec

end Sys2Proof.Machine

namespace Sys2Proof.Machine

/-! ## The handshake (R190) -/

/-- Bytes that are accepted, none of them a Crc byte, write only what the parser owns. -/
theorem Accepts.exceptParser {now : Time} {bs : List Byte} {s t : State} (h : Accepts now bs s t) :
    t.exceptParser = s.exceptParser := by
  induction bs generalizing s with
  | nil => cases h; rfl
  | cons b bs ih =>
    obtain ⟨u, v, outs, hbyte, hfeed, heq⟩ := (feedBytes_cons_eq_next_iff now b bs s _).1 h
    simp only [List.length_cons, List.replicate_succ, Prod.mk.injEq, List.cons.injEq] at heq
    obtain ⟨rfl, hout, rfl⟩ := heq
    have hu : u.exceptParser = s.exceptParser := by
      refine (execByte_writes hbyte).resolve_right fun hdispatch => ?_
      have hframe := hdispatch.frame
      rw [← hout] at hframe
      cases hframe
    exact (ih hfeed).trans hu

/-- What a stats frame that calls for a forward transition does to the link: it moves, the activity is noted, and a
request is made unless passive (R176, R177). -/
structure MovesTo (s : State) (new : CState) (now : Time) (t : State) : Prop where
  cfg : t.cfg = s.cfg
  passive : t.passive = s.passive
  pstate : t.pstate = .waitSync
  cstate : t.cstate = new
  tLast : t.tLast = now
  cev : t.out.cev = some (s.cstate, new)
  tx : s.passive = false → t.out.tx = some .stats

/-- The dispatch step of a stats frame that calls for a forward transition makes it (R136, R173, R176). -/
theorem movesTo_of_execPGotCrc {b : Byte} {now : Time} {s t : State} {f : Frame} {ps : Byte} {new : CState}
    (hf : FrameHeld s f) (hps : statsOf s.cfg f.objid f.data = some ps) (hnew : Forward s.cfg s.cstate ps new)
    (h : execPGotCrc b now s = .next t) : MovesTo s new now t := by
  obtain ⟨-, s1, s2, s3, hemit, hdispatch, hframe, rfl⟩ := (execPGotCrc_eq_next_iff b now s t).1 h
  obtain ⟨g, -, -, rfl⟩ := (emitFrame_eq_next_iff b s s1).1 hemit
  obtain ⟨snap, out, rfl, -⟩ := dispatchObject_writes hdispatch
  cases (execCFrame_of_frameHeld (s := { s with snap := snap, out := out }) hf now).symm.trans hframe
  rw [State.takeFrame_of_stats (s := { s with snap := snap, out := out }) hps,
    State.takeStats_of_forward (s := { s with snap := snap, out := { out with activity := true } }) hnew]
  exact ⟨rfl, rfl, rfl, rfl, rfl, rfl, fun hp => if_neg (by simp [hp])⟩

/-- The encoding of a peer status is a valid stats frame of that status (R93, R174). -/
theorem statsOf_statsBytes (cfg : Config) (ps : Byte) :
    statsOf cfg cfg.statsObjId (List.replicate cfg.statsStatusOff.val 0 ++ [ps]) = some ps :=
  statsOf_eq_some rfl (by simp)

/-- The bytes of a stats frame that calls for a forward transition, taken from WaitSync, make it. -/
theorem exists_feedBytes_statsBytes {s : State} {ps : Byte} {new : CState} (now : Time) (hs : s.Inv)
    (hp : s.pstate = .waitSync) (htype : legalMsgType s.cfg (s.cfg.verTag ||| s.cfg.tObj) = true)
    (hnew : Forward s.cfg s.cstate ps new) :
    ∃ t outs, feedBytes now (statsBytes s.cfg ps) s = .next (t, outs) ∧ t.Inv ∧ MovesTo s new now t := by
  have hlen : (List.replicate s.cfg.statsStatusOff.val 0 ++ [ps]).length ≤ 255 := by
    simp
  obtain ⟨u, hbody, hu, -, hcrc, hheld⟩ :=
    accepts_frameBody (now := now) (objid := s.cfg.statsObjId) (instid := 0) hs hp htype hlen
  obtain ⟨⟨hcfg, hpassive, -⟩, -, hcstate, -⟩ := (State.exceptParser_eq_iff s u).1 hbody.exceptParser
  obtain ⟨hc, -⟩ := id hs
  obtain ⟨t, ht, -⟩ := execPGotCrc_of_frameHeld (s := u.matched) (hcfg ▸ hc) hheld rfl rfl now
  have hmoves : MovesTo u.matched new now t :=
    movesTo_of_execPGotCrc hheld (by rw [State.matched_cfg, hcfg]; exact statsOf_statsBytes s.cfg ps)
      (by rw [State.matched_cfg, State.matched_cstate, hcfg, hcstate]; exact hnew) ht
  have hlast := ((execByte_of_gotData _ now hu).trans (execPGotData_of_eq _ now hu hcrc.symm)).trans ht
  have hfeed : feedBytes now (statsBytes s.cfg ps) s = .next (t, _) :=
    feedBytes_append hbody (feedBytes_singleton hlast)
  obtain ⟨t', outs, hfeed', ht'⟩ := feedBytes_answersInv hs now (statsBytes s.cfg ps)
  cases hfeed.symm.trans hfeed'
  exact ⟨t, _, hfeed, ht', hmoves.cfg.trans hcfg, hmoves.passive.trans hpassive, hmoves.pstate, hmoves.cstate,
    hmoves.tLast, hcstate ▸ hmoves.cev, fun h => hmoves.tx (hpassive.trans h)⟩

/-- Settles O52: each of the three frames calls for the forward transition of the state that the one before led to. -/
theorem threeStatsFramesConnect : Obligations.ThreeStatsFramesConnect := by
  unfold Obligations.ThreeStatsFramesConnect
  intro t1 t2 t3 s hs hp hc htype
  obtain ⟨a, oa, hfeedA, ha, hmoveA⟩ :=
    exists_feedBytes_statsBytes t1 hs hp htype (.inl ⟨hc, rfl, rfl⟩)
  obtain ⟨b, ob, hfeedB, hb, hmoveB⟩ :=
    exists_feedBytes_statsBytes t2 ha hmoveA.pstate (hmoveA.cfg ▸ htype) (.inr (.inl ⟨hmoveA.cstate, rfl, rfl⟩))
  obtain ⟨c, oc, hfeedC, -, hmoveC⟩ :=
    exists_feedBytes_statsBytes t3 hb hmoveB.pstate (hmoveB.cfg ▸ hmoveA.cfg ▸ htype)
      (.inr (.inr ⟨hmoveB.cstate, rfl, rfl⟩))
  rw [hmoveB.cfg] at hfeedC
  rw [hmoveA.cfg] at hfeedB hfeedC
  refine ⟨a, b, c, oa, ob, oc, hfeedA, hfeedB, hfeedC, hmoveA.cstate, hmoveB.cstate, hmoveC.cstate, hmoveC.tLast,
    hmoveB.cstate ▸ hmoveC.cev, fun hpassive => ?_⟩
  have hpa : a.passive = false := hmoveA.passive.trans hpassive
  exact ⟨hmoveA.tx hpassive, hmoveB.tx hpa, hmoveC.tx (hmoveB.passive.trans hpa)⟩

end Sys2Proof.Machine

namespace Sys2Proof.Machine

/-! ## With nothing to deliver (60_exceptions.md R220) -/

/-- Under a well-formed configuration and with an empty queue, `step` is NOP: only the step's own records begin anew. -/
theorem step_of_input_nil {s : State} (hc : configProblem s.cfg = none) (hq : s.input = []) :
    step s = .next s.beginStep := by
  simp only [step, hc, fetch, hq, execNop]

/-- Settles O9: nothing is fetched, and NOP writes no more than the default records of `beginStep`. -/
theorem stepIsIdleWithoutAStimulus : Obligations.StepIsIdleWithoutAStimulus := by
  unfold Obligations.StepIsIdleWithoutAStimulus
  exact fun s hc hq => step_of_input_nil hc hq

end Sys2Proof.Machine

namespace Sys2Proof.Machine

/-! ## RESET (70_reset_and_hazards.md R230, 10_state.md R40) -/

/-- RESET completes in every state, with `resetAll` of it. -/
theorem exec_reset (s : State) : exec .reset s = .next s.resetAll := rfl

/-- The first byte after RESET is taken by P.WAITSYNC. -/
theorem exec_byte_resetAll (s : State) (b : Byte) (now : Time) :
    exec (.byte b now) s.resetAll = exec (.pWaitSync b now) s.resetAll :=
  execByte_of_waitSync b now s.resetAll_pstate

/-- Settles O13: each item is read off `resetAll`, whose Data buffer and snapshot are the empty memory. -/
theorem resetGivesTheResetValues : Obligations.ResetGivesTheResetValues := by
  unfold Obligations.ResetGivesTheResetValues
  intro s
  refine ⟨s.resetAll, exec_reset s, ?items⟩
  case items => simp [Memory.read_nil, exec_byte_resetAll]

end Sys2Proof.Machine
